-- ==== Sys2Proof/Word.lean ====
section
/-! DEFINITION. The word types of the core (`10_state.md` R21, R23; `30_encoding.md` R74, R75). -/

namespace Sys2Proof

/-- `u8`: a general register, a timer, a byte of memory. -/
abbrev Byte := BitVec 8

/-- `u16`: an instruction word, `pc`, a stack entry. -/
abbrev Word := BitVec 16

/-- The number of a general register, an `x` or `y` field. -/
abbrev Reg := Fin 16

/-- Register 15, VF (`10_state.md` R22). -/
abbrev VF : Reg := 15

end Sys2Proof
end

