-- ==== Sys2Proof/Syntax.lean ====
section
/-! DEFINITION. The instructions of `30_encoding.md` R77, one constructor a row of `opcode_table.json`, in its order. -/

namespace Sys2Proof

/-- The 37 instructions. `nn` and `nnn` are the immediates of `30_encoding.md` R75; `n` is the row count of DXYN,
kept as a number and bounded by `Instr.wellFormed` (log 20). -/
inductive Instr where
  | cls                                -- 00E0  CLS
  | ret                                -- 00EE  RET
  | exit                               -- 00FD  EXIT
  | low                                -- 00FE  LOW
  | high                               -- 00FF  HIGH
  | jp (nnn : BitVec 12)               -- 1NNN  JP nnn
  | call (nnn : BitVec 12)             -- 2NNN  CALL nnn
  | seImm (x : Reg) (nn : Byte)        -- 3XNN  SE Vx, nn
  | sneImm (x : Reg) (nn : Byte)       -- 4XNN  SNE Vx, nn
  | seReg (x y : Reg)                  -- 5XY0  SE Vx, Vy
  | ldImm (x : Reg) (nn : Byte)        -- 6XNN  LD Vx, nn
  | addImm (x : Reg) (nn : Byte)       -- 7XNN  ADD Vx, nn
  | ldReg (x y : Reg)                  -- 8XY0  LD Vx, Vy
  | orReg (x y : Reg)                  -- 8XY1  OR Vx, Vy
  | andReg (x y : Reg)                 -- 8XY2  AND Vx, Vy
  | xorReg (x y : Reg)                 -- 8XY3  XOR Vx, Vy
  | addReg (x y : Reg)                 -- 8XY4  ADD Vx, Vy
  | sub (x y : Reg)                    -- 8XY5  SUB Vx, Vy
  | shr (x y : Reg)                    -- 8XY6  SHR Vx, Vy
  | subn (x y : Reg)                   -- 8XY7  SUBN Vx, Vy
  | shl (x y : Reg)                    -- 8XYE  SHL Vx, Vy
  | sneReg (x y : Reg)                 -- 9XY0  SNE Vx, Vy
  | ldI (nnn : BitVec 12)              -- ANNN  LD I, nnn
  | jpV0 (nnn : BitVec 12)             -- BNNN  JP V0, nnn
  | rnd (x : Reg) (nn : Byte)          -- CXNN  RND Vx, nn
  | drw (x y : Reg) (n : Nat)          -- DXYN  DRW Vx, Vy, n
  | skp (x : Reg)                      -- EX9E  SKP Vx
  | sknp (x : Reg)                     -- EXA1  SKNP Vx
  | ldVxDT (x : Reg)                   -- FX07  LD Vx, DT
  | ldVxK (x : Reg)                    -- FX0A  LD Vx, K
  | ldDTVx (x : Reg)                   -- FX15  LD DT, Vx
  | ldSTVx (x : Reg)                   -- FX18  LD ST, Vx
  | addI (x : Reg)                     -- FX1E  ADD I, Vx
  | ldF (x : Reg)                      -- FX29  LD F, Vx
  | ldB (x : Reg)                      -- FX33  LD B, Vx
  | storeRegs (x : Reg)                -- FX55  LD [I], Vx
  | loadRegs (x : Reg)                 -- FX65  LD Vx, [I]
  deriving DecidableEq, Repr

end Sys2Proof
end

