-- ==== Sys2Proof/WellFormed.lean ====
section
/-! DEFINITION. Which terms of `Instr` are instructions. Register numbers and immediates are in range by their types
(`30_encoding.md` R74, R75); the one operand kept as a number is the row count of DXYN, 0..15. -/

namespace Sys2Proof

/-- The operands fit their fields (`30_encoding.md` R75: "`n` is an unsigned count 0..15 (DXYN only)"). -/
def Instr.wellFormed : Instr → Bool
  | .drw _ _ n => decide (n ≤ 15)
  | .cls | .ret | .exit | .low | .high => true
  | .jp _ | .call _ | .ldI _ | .jpV0 _ => true
  | .seImm _ _ | .sneImm _ _ | .ldImm _ _ | .addImm _ _ | .rnd _ _ => true
  | .seReg _ _ | .sneReg _ _ | .ldReg _ _ | .orReg _ _ | .andReg _ _ | .xorReg _ _ => true
  | .addReg _ _ | .sub _ _ | .shr _ _ | .subn _ _ | .shl _ _ => true
  | .skp _ | .sknp _ | .ldVxDT _ | .ldVxK _ | .ldDTVx _ | .ldSTVx _ => true
  | .addI _ | .ldF _ | .ldB _ | .storeRegs _ | .loadRegs _ => true

end Sys2Proof
end

