-- ==== Sys2Proof/Decode.lean ====
section
/-! DEFINITION. Fields, decoder and encoder (`30_encoding.md` R74 to R81), the opcode map of R77 as rows of mask and
match, and `decodeTableWord` for the host. -/

namespace Sys2Proof

/-- Why bytes are no instruction. -/
inductive DecodeError where
  /-- The word matches no row of `30_encoding.md` R77 (R79). -/
  | unknownOpcode (opcode : Word)
  /-- Fewer than two bytes are there to read. -/
  | truncated
  deriving DecidableEq, Repr

/-- `v[hi:lo]` as an unsigned integer (`00_scope.md` R7). -/
def slice (v : Word) (hi lo : Nat) : Nat := v.toNat / 2 ^ lo % 2 ^ (hi + 1 - lo)

/-- `op = opcode[15:12]` (`00_scope.md` R7). -/
def opField (w : Word) : Nat := slice w 15 12

/-- `x = opcode[11:8]` as a register number. -/
def xField (w : Word) : Reg := Fin.ofNat 16 (slice w 11 8)

/-- `y = opcode[7:4]` as a register number. -/
def yField (w : Word) : Reg := Fin.ofNat 16 (slice w 7 4)

/-- `n = opcode[3:0]`. -/
def nField (w : Word) : Nat := slice w 3 0

/-- `nn = opcode[7:0]`. -/
def nnField (w : Word) : Byte := BitVec.ofNat 8 (slice w 7 0)

/-- `nnn = opcode[11:0]`. -/
def nnnField (w : Word) : BitVec 12 := BitVec.ofNat 12 (slice w 11 0)

/-- `op = 0`: the whole word decides (`30_encoding.md` R76). -/
def decodeZero (w : Word) : Except DecodeError Instr :=
  match slice w 11 0 with
  | 0x0E0 => .ok .cls
  | 0x0EE => .ok .ret
  | 0x0FD => .ok .exit
  | 0x0FE => .ok .low
  | 0x0FF => .ok .high
  | _ => .error (.unknownOpcode w)

/-- `op = 5`: 5XY0 alone. -/
def decodeFive (w : Word) : Except DecodeError Instr :=
  match nField w with
  | 0x0 => .ok (.seReg (xField w) (yField w))
  | _ => .error (.unknownOpcode w)

/-- `op = 8`: sub-dispatch on `n`. -/
def decodeEight (w : Word) : Except DecodeError Instr :=
  match nField w with
  | 0x0 => .ok (.ldReg (xField w) (yField w))
  | 0x1 => .ok (.orReg (xField w) (yField w))
  | 0x2 => .ok (.andReg (xField w) (yField w))
  | 0x3 => .ok (.xorReg (xField w) (yField w))
  | 0x4 => .ok (.addReg (xField w) (yField w))
  | 0x5 => .ok (.sub (xField w) (yField w))
  | 0x6 => .ok (.shr (xField w) (yField w))
  | 0x7 => .ok (.subn (xField w) (yField w))
  | 0xE => .ok (.shl (xField w) (yField w))
  | _ => .error (.unknownOpcode w)

/-- `op = 9`: 9XY0 alone. -/
def decodeNine (w : Word) : Except DecodeError Instr :=
  match nField w with
  | 0x0 => .ok (.sneReg (xField w) (yField w))
  | _ => .error (.unknownOpcode w)

/-- `op = E`: sub-dispatch on `nn`. -/
def decodeE (w : Word) : Except DecodeError Instr :=
  match slice w 7 0 with
  | 0x9E => .ok (.skp (xField w))
  | 0xA1 => .ok (.sknp (xField w))
  | _ => .error (.unknownOpcode w)

/-- `op = F`: sub-dispatch on `nn`. -/
def decodeF (w : Word) : Except DecodeError Instr :=
  match slice w 7 0 with
  | 0x07 => .ok (.ldVxDT (xField w))
  | 0x0A => .ok (.ldVxK (xField w))
  | 0x15 => .ok (.ldDTVx (xField w))
  | 0x18 => .ok (.ldSTVx (xField w))
  | 0x1E => .ok (.addI (xField w))
  | 0x29 => .ok (.ldF (xField w))
  | 0x33 => .ok (.ldB (xField w))
  | 0x55 => .ok (.storeRegs (xField w))
  | 0x65 => .ok (.loadRegs (xField w))
  | _ => .error (.unknownOpcode w)

/-- Decode (`30_encoding.md` R76): total on 16-bit words, independent of every piece of state. -/
def decodeWord (w : Word) : Except DecodeError Instr :=
  match opField w with
  | 0x0 => decodeZero w
  | 0x1 => .ok (.jp (nnnField w))
  | 0x2 => .ok (.call (nnnField w))
  | 0x3 => .ok (.seImm (xField w) (nnField w))
  | 0x4 => .ok (.sneImm (xField w) (nnField w))
  | 0x5 => decodeFive w
  | 0x6 => .ok (.ldImm (xField w) (nnField w))
  | 0x7 => .ok (.addImm (xField w) (nnField w))
  | 0x8 => decodeEight w
  | 0x9 => decodeNine w
  | 0xA => .ok (.ldI (nnnField w))
  | 0xB => .ok (.jpV0 (nnnField w))
  | 0xC => .ok (.rnd (xField w) (nnField w))
  | 0xD => .ok (.drw (xField w) (yField w) (nField w))
  | 0xE => decodeE w
  | 0xF => decodeF w
  | _ => .error (.unknownOpcode w)

/-- The word made of two bytes, the byte at the lower address first: big-endian (`20_memory.md` R56). -/
def wordOfBytes (first second : Byte) : Word := BitVec.ofNat 16 (first.toNat * 0x100 + second.toNat)

/-- The two bytes of a word in memory order (`20_memory.md` R56). -/
def bytesOfWord (w : Word) : List Byte := [BitVec.ofNat 8 (slice w 15 8), BitVec.ofNat 8 (slice w 7 0)]

/-- The decoder on bytes in memory order: one instruction and the rest. -/
def decode : List Byte → Except DecodeError (Instr × List Byte)
  | first :: second :: rest =>
    match decodeWord (wordOfBytes first second) with
    | .ok i => .ok (i, rest)
    | .error e => .error e
  | _ => .error .truncated

/-- A word from its four nibbles (`30_encoding.md` R74). -/
def wordXYN (op x y n : Nat) : Word := BitVec.ofNat 16 (0x1000 * op + 0x100 * x + 0x10 * y + n)

/-- A word from `op`, `x` and `nn`. -/
def wordXNN (op x nn : Nat) : Word := BitVec.ofNat 16 (0x1000 * op + 0x100 * x + nn)

/-- A word from `op` and `nnn`. -/
def wordNNN (op nnn : Nat) : Word := BitVec.ofNat 16 (0x1000 * op + nnn)

/-- The encoder, from the patterns of `30_encoding.md` R77. -/
def encode : Instr → Word
  | .cls => 0x00E0
  | .ret => 0x00EE
  | .exit => 0x00FD
  | .low => 0x00FE
  | .high => 0x00FF
  | .jp nnn => wordNNN 0x1 nnn.toNat
  | .call nnn => wordNNN 0x2 nnn.toNat
  | .seImm x nn => wordXNN 0x3 x.val nn.toNat
  | .sneImm x nn => wordXNN 0x4 x.val nn.toNat
  | .seReg x y => wordXYN 0x5 x.val y.val 0x0
  | .ldImm x nn => wordXNN 0x6 x.val nn.toNat
  | .addImm x nn => wordXNN 0x7 x.val nn.toNat
  | .ldReg x y => wordXYN 0x8 x.val y.val 0x0
  | .orReg x y => wordXYN 0x8 x.val y.val 0x1
  | .andReg x y => wordXYN 0x8 x.val y.val 0x2
  | .xorReg x y => wordXYN 0x8 x.val y.val 0x3
  | .addReg x y => wordXYN 0x8 x.val y.val 0x4
  | .sub x y => wordXYN 0x8 x.val y.val 0x5
  | .shr x y => wordXYN 0x8 x.val y.val 0x6
  | .subn x y => wordXYN 0x8 x.val y.val 0x7
  | .shl x y => wordXYN 0x8 x.val y.val 0xE
  | .sneReg x y => wordXYN 0x9 x.val y.val 0x0
  | .ldI nnn => wordNNN 0xA nnn.toNat
  | .jpV0 nnn => wordNNN 0xB nnn.toNat
  | .rnd x nn => wordXNN 0xC x.val nn.toNat
  | .drw x y n => wordXYN 0xD x.val y.val n
  | .skp x => wordXNN 0xE x.val 0x9E
  | .sknp x => wordXNN 0xE x.val 0xA1
  | .ldVxDT x => wordXNN 0xF x.val 0x07
  | .ldVxK x => wordXNN 0xF x.val 0x0A
  | .ldDTVx x => wordXNN 0xF x.val 0x15
  | .ldSTVx x => wordXNN 0xF x.val 0x18
  | .addI x => wordXNN 0xF x.val 0x1E
  | .ldF x => wordXNN 0xF x.val 0x29
  | .ldB x => wordXNN 0xF x.val 0x33
  | .storeRegs x => wordXNN 0xF x.val 0x55
  | .loadRegs x => wordXNN 0xF x.val 0x65

/-- One row of the opcode map of `30_encoding.md` R77: a word is of the row iff `(opcode and mask) == pattern`. -/
structure OpcodeRow where
  mnemonic : String
  mask : Word
  pattern : Word
  deriving DecidableEq, Repr

/-- The word is of this row (`30_encoding.md` R76). -/
def OpcodeRow.covers (r : OpcodeRow) (w : Word) : Bool := (w &&& r.mask) == r.pattern

def systemRows : List OpcodeRow :=
  [⟨"CLS", 0xFFFF, 0x00E0⟩, ⟨"RET", 0xFFFF, 0x00EE⟩, ⟨"EXIT", 0xFFFF, 0x00FD⟩,
   ⟨"LOW", 0xFFFF, 0x00FE⟩, ⟨"HIGH", 0xFFFF, 0x00FF⟩]

def controlRows : List OpcodeRow :=
  [⟨"JP_nnn", 0xF000, 0x1000⟩, ⟨"CALL_nnn", 0xF000, 0x2000⟩, ⟨"SE_Vx__nn", 0xF000, 0x3000⟩,
   ⟨"SNE_Vx__nn", 0xF000, 0x4000⟩, ⟨"SE_Vx__Vy", 0xF00F, 0x5000⟩]

def aluRows : List OpcodeRow :=
  [⟨"LD_Vx__nn", 0xF000, 0x6000⟩, ⟨"ADD_Vx__nn", 0xF000, 0x7000⟩, ⟨"LD_Vx__Vy", 0xF00F, 0x8000⟩,
   ⟨"OR_Vx__Vy", 0xF00F, 0x8001⟩, ⟨"AND_Vx__Vy", 0xF00F, 0x8002⟩, ⟨"XOR_Vx__Vy", 0xF00F, 0x8003⟩,
   ⟨"ADD_Vx__Vy", 0xF00F, 0x8004⟩, ⟨"SUB_Vx__Vy", 0xF00F, 0x8005⟩, ⟨"SHR_Vx__Vy", 0xF00F, 0x8006⟩,
   ⟨"SUBN_Vx__Vy", 0xF00F, 0x8007⟩, ⟨"SHL_Vx__Vy", 0xF00F, 0x800E⟩]

def midRows : List OpcodeRow :=
  [⟨"SNE_Vx__Vy", 0xF00F, 0x9000⟩, ⟨"LD_I__nnn", 0xF000, 0xA000⟩, ⟨"JP_V0__nnn", 0xF000, 0xB000⟩,
   ⟨"RND_Vx__nn", 0xF000, 0xC000⟩, ⟨"DRW_Vx__Vy__n", 0xF000, 0xD000⟩, ⟨"SKP_Vx", 0xF0FF, 0xE09E⟩,
   ⟨"SKNP_Vx", 0xF0FF, 0xE0A1⟩]

def effRows : List OpcodeRow :=
  [⟨"LD_Vx__DT", 0xF0FF, 0xF007⟩, ⟨"LD_Vx__K", 0xF0FF, 0xF00A⟩, ⟨"LD_DT__Vx", 0xF0FF, 0xF015⟩,
   ⟨"LD_ST__Vx", 0xF0FF, 0xF018⟩, ⟨"ADD_I__Vx", 0xF0FF, 0xF01E⟩, ⟨"LD_F__Vx", 0xF0FF, 0xF029⟩,
   ⟨"LD_B__Vx", 0xF0FF, 0xF033⟩, ⟨"LD__I___Vx", 0xF0FF, 0xF055⟩, ⟨"LD_Vx___I", 0xF0FF, 0xF065⟩]

/-- The opcode map, in the order of `opcode_table.json`. -/
def opcodeRows : List OpcodeRow := systemRows ++ controlRows ++ aluRows ++ midRows ++ effRows

/-- The row an instruction belongs to, by its mnemonic in `opcode_table.json`. -/
def Instr.mnemonic : Instr → String
  | .cls => "CLS" | .ret => "RET" | .exit => "EXIT" | .low => "LOW" | .high => "HIGH"
  | .jp _ => "JP_nnn" | .call _ => "CALL_nnn" | .seImm _ _ => "SE_Vx__nn" | .sneImm _ _ => "SNE_Vx__nn"
  | .seReg _ _ => "SE_Vx__Vy" | .ldImm _ _ => "LD_Vx__nn" | .addImm _ _ => "ADD_Vx__nn"
  | .ldReg _ _ => "LD_Vx__Vy" | .orReg _ _ => "OR_Vx__Vy" | .andReg _ _ => "AND_Vx__Vy"
  | .xorReg _ _ => "XOR_Vx__Vy" | .addReg _ _ => "ADD_Vx__Vy" | .sub _ _ => "SUB_Vx__Vy"
  | .shr _ _ => "SHR_Vx__Vy" | .subn _ _ => "SUBN_Vx__Vy" | .shl _ _ => "SHL_Vx__Vy"
  | .sneReg _ _ => "SNE_Vx__Vy" | .ldI _ => "LD_I__nnn" | .jpV0 _ => "JP_V0__nnn"
  | .rnd _ _ => "RND_Vx__nn" | .drw _ _ _ => "DRW_Vx__Vy__n" | .skp _ => "SKP_Vx" | .sknp _ => "SKNP_Vx"
  | .ldVxDT _ => "LD_Vx__DT" | .ldVxK _ => "LD_Vx__K" | .ldDTVx _ => "LD_DT__Vx" | .ldSTVx _ => "LD_ST__Vx"
  | .addI _ => "ADD_I__Vx" | .ldF _ => "LD_F__Vx" | .ldB _ => "LD_B__Vx"
  | .storeRegs _ => "LD__I___Vx" | .loadRegs _ => "LD_Vx___I"

/-- For the host: the instruction the decoder reads from the word `w` of `nbits` bits, laid out big-endian
(every bit above `nbits` is 0; an instruction is one 16-bit word). -/
def decodeTableWord (nbits w : Nat) : Option Instr :=
  match decode (bytesOfWord (BitVec.ofNat 16 (w % 2 ^ nbits))) with
  | .ok (i, _) => some i
  | .error _ => none

end Sys2Proof
end

