-- ==== Sys2Proof/Config.lean ====
section
/-! DEFINITION. The constants of `00_scope.md` R5, the parameters of R6, the inputs and events of `10_state.md` R44,
and the two free values: the random byte (R144) and the host's open schedule (R217). -/

namespace Sys2Proof.Config

/-- Bytes of main memory (`00_scope.md` R5). -/
def memSize : Nat := 4096

/-- Program load address and reset pc (`00_scope.md` R5). -/
def progBase : Nat := 0x200

/-- Longest ROM that fits (`00_scope.md` R5). -/
def romMax : Nat := 3584

/-- `FONT_BASE`: its two legal values (`00_scope.md` R6, `90_conflicts.md` C1). -/
inductive FontBase where
  | at000
  | at050
  deriving DecidableEq, Repr, Inhabited

/-- `EDGE_POLICY` (`00_scope.md` R6, `44_draw.md` R173). -/
inductive EdgePolicy where
  | byDialect
  | alwaysClip
  | alwaysWrap
  deriving DecidableEq, Repr, Inhabited

/-- `UNKNOWN_POLICY` (`00_scope.md` R6, `30_encoding.md` R80). -/
inductive UnknownPolicy where
  | reportAndContinue
  | halt
  deriving DecidableEq, Repr, Inhabited

/-- The configuration parameters of `00_scope.md` R6 (all but `ROM`, which is the argument of Reset). -/
structure Params where
  fontBase : FontBase
  fontTable : Vector Byte 80
  edgePolicy : EdgePolicy
  unknownPolicy : UnknownPolicy
  deriving DecidableEq, Repr

/-- The level inputs of `10_state.md` R44. Bit `k` of a key vector is key `k` (R45). `rngByte` is `none` when
nothing is known of the level on that port (log 4). -/
structure Inputs where
  keysDown : BitVec 16
  keysReleased : BitVec 16
  powerOffReq : Bool
  rngByte : Option Byte
  deriving DecidableEq, Repr, Inhabited

/-- The atomic events of `00_scope.md` section 3. -/
inductive HostEvent where
  /-- One instruction slot (`30_encoding.md` R70). -/
  | slot
  /-- TimerTick (`60_exceptions.md` R215). -/
  | timerTick
  /-- GateOpen (`44_draw.md` R171). -/
  | gateOpen
  /-- DirtyAck (`10_state.md` R37). -/
  | dirtyAck
  /-- The host changes the level inputs (`10_state.md` R44). -/
  | inputChange (levels : Inputs)
  /-- Reset with a ROM (`70_reset_and_hazards.md` R240). -/
  | reset (rom : List Byte)
  deriving DecidableEq, Repr, Inhabited

/-- FREE VALUE: what `rng_byte` shows the `k`-th CXNN when nothing is known of the port; `42_alu.md` R144 promises
nothing about it. DESIGN CHOICE, log 4; safe. -/
opaque rngByte : Nat → Byte

/-- FREE VALUE: the `k`-th event of an open schedule; `60_exceptions.md` R217 allows any interleaving.
DESIGN CHOICE, log 2; safe. -/
opaque hostEvent : Nat → HostEvent

end Sys2Proof.Config
end

