-- ==== Sys2Proof/Machine/Defaults.lean ====
section
/-! DEFINITION. The values of the parameters of `00_scope.md` R6: where the font lies, the default font, the defaults. -/

namespace Sys2Proof.Config

/-- The first address of the font. -/
def FontBase.addr : FontBase → Nat
  | .at000 => 0x000
  | .at050 => 0x050

/-- The default `FONT_TABLE` of `20_memory.md` R55, which the spec takes from general knowledge.
PRESUMED, log 6; unsafe for a claim that rests on the bytes. -/
def defaultFont : Vector Byte 80 :=
  #v[0xF0, 0x90, 0x90, 0x90, 0xF0,  0x20, 0x60, 0x20, 0x20, 0x70,
     0xF0, 0x10, 0xF0, 0x80, 0xF0,  0xF0, 0x10, 0xF0, 0x10, 0xF0,
     0x90, 0x90, 0xF0, 0x10, 0x10,  0xF0, 0x80, 0xF0, 0x10, 0xF0,
     0xF0, 0x80, 0xF0, 0x90, 0xF0,  0xF0, 0x10, 0x20, 0x40, 0x40,
     0xF0, 0x90, 0xF0, 0x90, 0xF0,  0xF0, 0x90, 0xF0, 0x10, 0xF0,
     0xF0, 0x90, 0xF0, 0x90, 0x90,  0xE0, 0x90, 0xE0, 0x90, 0xE0,
     0xF0, 0x80, 0x80, 0x80, 0xF0,  0xE0, 0x90, 0x90, 0x90, 0xE0,
     0xF0, 0x80, 0xF0, 0x80, 0xF0,  0xF0, 0x80, 0xF0, 0x80, 0x80]

/-- The defaults of `00_scope.md` R6. DESIGN CHOICE, log 5. -/
def defaultParams : Params where
  fontBase := .at000
  fontTable := defaultFont
  edgePolicy := .byDialect
  unknownPolicy := .reportAndContinue

end Sys2Proof.Config
end

