-- ==== Sys2Proof/Machine/State.lean ====
section
/-! DEFINITION. The state of the core (`10_state.md` R20), its reset value (R47), and why a step could stop. The last
five fields are the model's own: they hold what the spec makes an argument of the step. -/

namespace Sys2Proof.Machine

/-- `dialect` (`10_state.md` R32). -/
inductive Dialect where
  | chip8
  | schip
  deriving DecidableEq, Repr

/-- `status` (`10_state.md` R39). -/
inductive Status where
  | running
  | halted
  | faulted
  deriving DecidableEq, Repr

/-- What comes when no scheduled event is left (`60_exceptions.md` R217, log 1 and log 2): instruction slots only, or
the free events `Config.hostEvent k`, `k + 1`, ... -/
inductive Beyond where
  | slots
  | free (k : Nat)
  deriving DecidableEq, Repr

structure State where
  /-- `V[0..15]` (R21, R22). -/
  v : Vector Byte 16
  /-- `pc` (R23 to R25). -/
  pc : Word
  /-- `I`, 16 bits of which the top 4 stay 0 (R26). -/
  i : Word
  /-- `stack[0..15]` (R27). -/
  stack : Vector Word 16
  /-- `SP`, 0..16 (R27). -/
  sp : Fin 17
  /-- `DT` (R31). -/
  dt : Byte
  /-- `ST` (R31). -/
  st : Byte
  /-- `dialect` (R32). -/
  dialect : Dialect
  /-- `hires` (R33). -/
  hires : Bool
  /-- The framebuffer: row `y`, bit `x` of the row is `fb[y][x]` (R34, log 15). -/
  fb : Vector (BitVec 128) 64
  /-- `dirty` (R35). -/
  dirty : Bool
  /-- Main memory, as the cells that differ from the reset background (`20_memory.md` R50, log 10). -/
  mem : List Host.Cell
  /-- `gate_open` (R38). -/
  gateOpen : Bool
  /-- `status` (R39). -/
  status : Status
  /-- `fault_code` (R40, `60_exceptions.md` R200). -/
  faultCode : BitVec 3
  /-- `fault_pc` (R40). -/
  faultPc : Word
  /-- `fault_opcode` (R40). -/
  faultOpcode : Word
  /-- `fault_addr` (R40). -/
  faultAddr : Word
  /-- `unk_flag` (R41). -/
  unkFlag : Bool
  /-- `unk_opcode` (R41). -/
  unkOpcode : Word
  /-- `unk_pc` (R41). -/
  unkPc : Word
  /-- `rom_truncated` (R42). -/
  romTruncated : Bool
  /-- MODEL'S OWN: the parameters of `00_scope.md` R6, written by no event (log 5). -/
  params : Config.Params
  /-- MODEL'S OWN: the levels on the input ports (R44, R45, log 3). -/
  inputs : Config.Inputs
  /-- MODEL'S OWN: how many CXNN have run, the argument of the free random byte (log 4). -/
  rngCount : Nat
  /-- MODEL'S OWN: the host's events still to come, oldest first (log 1). -/
  schedule : List Config.HostEvent
  /-- MODEL'S OWN: what comes after them (log 1, log 2). -/
  beyond : Beyond
  deriving DecidableEq, Repr

/-- No fault stops the model: each of the spec's fault kinds has an entry the spec describes (`60_exceptions.md` R205)
and is a next state with `status = faulted` (log 11). So this type has no constructor; safe. -/
inductive Fault where
  deriving DecidableEq, Repr

/-- Why an instruction could have no meaning. -/
inductive Refusal where
  /-- Raised by an arm of `exec` whose instruction is not modelled yet; no arm raises it now. Safe: nothing is proved of
  a run that meets it. -/
  | notModelled (mnemonic : String)
  deriving DecidableEq, Repr

/-- The machine right after Reset with an empty ROM and the default parameters (`10_state.md` R47,
`70_reset_and_hazards.md` R240). Memory lists nothing: every byte reads as the reset background, which holds the font.
The values of the model's own fields are DESIGN CHOICES (log 1, 3, 4, 5). -/
def State.reset : State where
  v := Vector.replicate 16 0
  pc := 0x200
  i := 0
  stack := Vector.replicate 16 0
  sp := 0
  dt := 0
  st := 0
  dialect := .chip8
  hires := false
  fb := Vector.replicate 64 0
  dirty := true
  mem := []
  gateOpen := true
  status := .running
  faultCode := 0
  faultPc := 0
  faultOpcode := 0
  faultAddr := 0
  unkFlag := false
  unkOpcode := 0
  unkPc := 0
  romTruncated := false
  params := Config.defaultParams
  inputs := { keysDown := 0, keysReleased := 0, powerOffReq := false, rngByte := none }
  rngCount := 0
  schedule := []
  beyond := .slots

end Sys2Proof.Machine
end

