-- ==== Sys2Proof/Machine/Ops.lean ====
section
/-! DEFINITION. The shared operations over registers, memory, call stack and screen (`00_scope.md` R9), the fetch,
raising a fault (`60_exceptions.md` R205), holding (`30_encoding.md` R73) and reporting an unknown opcode (R80). The spec
has no return from a fault (`60_exceptions.md` R207): only Reset leaves `Faulted`, and it is in Events.lean. -/

namespace Sys2Proof.Machine

/-! ### Registers -/

/-- `V[x]` (`10_state.md` R21). -/
def State.reg (s : State) (x : Reg) : Byte := s.v[x.val]

/-- `V[x] <- b`. -/
def State.setReg (s : State) (x : Reg) (b : Byte) : State := { s with v := s.v.set x.val b }

/-- Write every general register whose number is at most `x`: `V[k] <- f k` for `k` in `0 .. x`. -/
def State.setRegsUpTo (s : State) (x : Reg) (f : Nat → Byte) : State :=
  { s with v := Vector.ofFn fun k : Fin 16 => if k.val ≤ x.val then f k.val else s.v[k.val] }

/-- `pc <- a` (`10_state.md` R23). -/
def State.setPc (s : State) (a : Word) : State := { s with pc := a }

/-- `pc <- pc + 2`, what the slot does after a fetch (`30_encoding.md` R72) and what a skip does. -/
def State.advance (s : State) : State := s.setPc (s.pc + 2)

/-- `hold`: `pc <- pc - 2`, nothing else (`30_encoding.md` R73). -/
def State.hold (s : State) : State := s.setPc (s.pc - 2)

/-- `skip` when the condition holds (`00_scope.md` R9). -/
def State.skipIf (s : State) (c : Bool) : State := if c then s.advance else s

/-- `I <- v` stores `trunc_12(v)` (`10_state.md` R26). -/
def State.setIndex (s : State) (v : Nat) : State := { s with i := BitVec.ofNat 16 (v % 0x1000) }

def State.setDelay (s : State) (b : Byte) : State := { s with dt := b }

def State.setSound (s : State) (b : Byte) : State := { s with st := b }

def State.setStatus (s : State) (st : Status) : State := { s with status := st }

/-! ### Main memory -/

/-- The byte the reset background has at `a`: the font from `FONT_BASE` on, 0 elsewhere (`20_memory.md` R52). What an
address with no cell reads as (log 10). -/
def background (p : Config.Params) (a : Nat) : Byte :=
  if p.fontBase.addr ≤ a then (p.fontTable[a - p.fontBase.addr]?).getD 0 else 0

/-- The byte at `a`: its cell, or the background. -/
def Memory.read (bg : Nat → Byte) : List Host.Cell → Nat → Byte
  | [], a => bg a
  | (k, b) :: m, a => if k = a then b else Memory.read bg m a

/-- Store `b` at `a`, keeping the canonical form: addresses rising, no cell equal to the background. -/
def Memory.write (bg : Nat → Byte) : List Host.Cell → Nat → Byte → List Host.Cell
  | [], a, b => if b = bg a then [] else [(a, b)]
  | (k, c) :: m, a, b =>
    if k < a then (k, c) :: Memory.write bg m a b
    else if k = a then (if b = bg a then m else (a, b) :: m)
    else if b = bg a then (k, c) :: m else (a, b) :: (k, c) :: m

/-- Every address of the list is at least `lo`, addresses rise, all lie in memory, and no cell equals the background. -/
def Memory.wfFrom (bg : Nat → Byte) (lo : Nat) : List Host.Cell → Bool
  | [] => true
  | (k, b) :: m =>
    decide (lo ≤ k) && decide (k < Config.memSize) && decide (b ≠ bg k) && Memory.wfFrom bg (k + 1) m

/-- The canonical form of main memory. -/
def Memory.wf (bg : Nat → Byte) (m : List Host.Cell) : Bool := Memory.wfFrom bg 0 m

/-- The cells of `bytes` laid out from `a` on (used to load a ROM). -/
def Memory.cellsFrom (bg : Nat → Byte) : Nat → List Byte → List Host.Cell
  | _, [] => []
  | a, b :: bs => if b = bg a then cellsFrom bg (a + 1) bs else (a, b) :: cellsFrom bg (a + 1) bs

/-- `MemRead(a, 1)` for an address already checked (`00_scope.md` R9). -/
def State.readByte (s : State) (a : Nat) : Byte := Memory.read (background s.params) s.mem a

/-- `MemWrite(a, 1, b)` for an address already checked. -/
def State.writeByte (s : State) (a : Nat) (b : Byte) : State :=
  { s with mem := Memory.write (background s.params) s.mem a b }

/-- Store the bytes at `a`, `a + 1`, ... in ascending order (`20_memory.md` R60). -/
def State.writeBytes (s : State) (a : Nat) : List Byte → State
  | [] => s
  | b :: bs => (s.writeByte a b).writeBytes (a + 1) bs

/-- The last address of the `k` bytes from `a`, `k >= 1`: an unbounded integer (`20_memory.md` R58). -/
def lastAddr (a k : Nat) : Nat := a + k - 1

/-- `CheckRange(a, k)` passes (`20_memory.md` R58); an access of no bytes always does. -/
def rangeOk (a k : Nat) : Bool := decide (k = 0) || decide (lastAddr a k ≤ 4095)

/-- The two bytes fetched at `pc`, or `none` when `pc >= 4095` (`20_memory.md` R56, R57). -/
def State.fetch (s : State) : Option Word :=
  if s.pc.toNat + 1 > 4095 then none
  else some (wordOfBytes (s.readByte s.pc.toNat) (s.readByte (s.pc.toNat + 1)))

/-- Place a word in memory at `a`, big-endian, as the host does when it puts an instruction there. -/
def State.placeWord (s : State) (a : Nat) (w : Word) : State := s.writeBytes a (bytesOfWord w)

/-! ### Call stack -/

/-- `Push(v)`, `none` when the stack is full (`10_state.md` R28). -/
def State.push (s : State) (v : Word) : Option State :=
  if h : s.sp.val < 16 then
    some { s with stack := s.stack.set s.sp.val v h, sp := ⟨s.sp.val + 1, by omega⟩ }
  else none

/-- `Pop()`, `none` when the stack is empty; the entry keeps its content (`10_state.md` R29). -/
def State.pop (s : State) : Option (Word × State) :=
  if h : 0 < s.sp.val then
    some (s.stack[s.sp.val - 1], { s with sp := ⟨s.sp.val - 1, by omega⟩ })
  else none

/-! ### Screen -/

/-- `W` (`10_state.md` R33). -/
def State.width (s : State) : Nat := if s.hires then 128 else 64

/-- `H` (`10_state.md` R33). -/
def State.height (s : State) : Nat := if s.hires then 64 else 32

/-- One stored pixel, column `x` of row `y` (`10_state.md` R34). -/
def pixelOf (fb : Vector (BitVec 128) 64) (x y : Nat) : Bool :=
  if h : y < 64 then fb[y].getLsbD x else false

/-- `fb[y][x]`. -/
def State.pixel (s : State) (x y : Nat) : Bool := pixelOf s.fb x y

/-- `fb[y][x] <- fb[y][x] xor 1`. -/
def flipPixel (fb : Vector (BitVec 128) 64) (x y : Nat) : Vector (BitVec 128) 64 :=
  if h : y < 64 then fb.set y (fb[y] ^^^ ((1#128) <<< x)) h else fb

def State.setScreen (s : State) (fb : Vector (BitVec 128) 64) : State := { s with fb := fb }

/-- Every pixel off. -/
def State.clearScreen (s : State) : State := s.setScreen (Vector.replicate 64 0)

def State.setDirty (s : State) (d : Bool) : State := { s with dirty := d }

def State.setGate (s : State) (g : Bool) : State := { s with gateOpen := g }

/-- `dialect <- SCHIP`, `hires <- h` (`40_system.md` R102, R103). -/
def State.selectResolution (s : State) (h : Bool) : State := { s with dialect := .schip, hires := h }

/-! ### Faults -/

/-- The four fault kinds (`60_exceptions.md` R200). -/
inductive FaultKind where
  | memoryOutOfBounds (addr : Nat)
  | stackOverflow
  | stackUnderflow
  | unknownOpcode
  deriving DecidableEq, Repr

/-- `fault_code` of a kind (`60_exceptions.md` R200). -/
def FaultKind.code : FaultKind → BitVec 3
  | .memoryOutOfBounds _ => 1
  | .stackOverflow => 2
  | .stackUnderflow => 3
  | .unknownOpcode => 4

/-- `fault_addr` of a kind: the last address of the range that failed, else 0 (`60_exceptions.md` R205). -/
def FaultKind.addr : FaultKind → Word
  | .memoryOutOfBounds a => BitVec.ofNat 16 a
  | .stackOverflow | .stackUnderflow | .unknownOpcode => 0

/-- Fault entry (`60_exceptions.md` R205): control goes nowhere, the record is filled, nothing else is written. -/
def State.raise (s : State) (k : FaultKind) (pcAtStart opcode : Word) : State :=
  { s with status := .faulted, faultCode := k.code, faultPc := pcAtStart, faultOpcode := opcode, faultAddr := k.addr }

/-- A fault raised while `instr` executes: `pc` is already advanced, so the slot began at `pc - 2`, and the fetched word
is the instruction's own (`30_encoding.md` R72, log 12). -/
def State.raiseIn (s : State) (instr : Instr) (k : FaultKind) : State := s.raise k (s.pc - 2) (encode instr)

/-- A fetch that fails: `pc` is not advanced and `fault_opcode` is 0 (`20_memory.md` R57). -/
def State.raiseFetch (s : State) : State := s.raise (.memoryOutOfBounds (s.pc.toNat + 1)) s.pc 0

/-- `DoUnknown(opcode)`'s report; `pc` is already advanced (`30_encoding.md` R80). -/
def State.reportUnknown (s : State) (opcode : Word) : State :=
  { s with unkFlag := true, unkOpcode := opcode, unkPc := s.pc - 2 }

/-- `DoUnknown(opcode)`: the report, and the fault under `Halt` (`30_encoding.md` R80, `60_exceptions.md` R204). -/
def State.doUnknown (s : State) (opcode : Word) : State :=
  match s.params.unknownPolicy with
  | .reportAndContinue => s.reportUnknown opcode
  | .halt => (s.reportUnknown opcode).raise .unknownOpcode (s.pc - 2) opcode

/-! ### The random input -/

/-- `rng_byte` as a CXNN samples it: the known level, or a free value (`42_alu.md` R144, log 4). -/
def State.rngSample (s : State) : Byte :=
  match s.inputs.rngByte with
  | some b => b
  | none => Config.rngByte s.rngCount

/-- One sample has been taken. -/
def State.countSample (s : State) : State := { s with rngCount := s.rngCount + 1 }

end Sys2Proof.Machine
end

