-- ==== Sys2Proof/Machine/Flags.lean ====
section
/-! DEFINITION. Every flag VF receives (`10_state.md` R22, `42_alu.md` R142), and the order result first, flag last
(`42_alu.md` R145). -/

namespace Sys2Proof.Machine

/-- A flag as the byte VF holds. -/
def flagByte (c : Bool) : Byte := if c then 1 else 0

/-- Carry of the add: the true sum exceeds 255. -/
def carry (a b : Byte) : Bool := decide (a.toNat + b.toNat > 255)

/-- No borrow of `a - b`: the minuend is not smaller. -/
def noBorrow (a b : Byte) : Bool := !decide (a.toNat < b.toNat)

/-- The bit SHR shifts out. -/
def bitOutRight (a : Byte) : Bool := a.getLsbD 0

/-- The bit SHL shifts out. -/
def bitOutLeft (a : Byte) : Bool := a.getLsbD 7

/-- `V[x] <- r`, then `V[F] <- flag` (`42_alu.md` R145). -/
def State.setResultFlag (s : State) (x : Reg) (r : Byte) (c : Bool) : State :=
  (s.setReg x r).setReg VF (flagByte c)

/-- `V[x] <- r`, then VF is cleared in the CHIP8 dialect only (`42_alu.md` R133). -/
def State.setLogic (s : State) (x : Reg) (r : Byte) : State :=
  match s.dialect with
  | .chip8 => (s.setReg x r).setReg VF 0
  | .schip => s.setReg x r

end Sys2Proof.Machine
end

