-- ==== Sys2Proof/Machine/Operands.lean ====
section
/-! DEFINITION. Operand selection: the dialect-dependent source registers, key and digit selection, effective addresses
and the decimal digits of FX33. -/

namespace Sys2Proof.Machine

/-- The source of a shift: Vy in the CHIP8 dialect, Vx in the SCHIP dialect (`42_alu.md` R138, R140). -/
def State.shiftSource (s : State) (x y : Reg) : Byte :=
  match s.dialect with
  | .chip8 => s.reg y
  | .schip => s.reg x

/-- The register number in the top nibble of `nnn` (`30_encoding.md` R75). -/
def topNibble (nnn : BitVec 12) : Reg := Fin.ofNat 16 (nnn.toNat / 0x100)

/-- The offset of BNNN: V0 in the CHIP8 dialect, Vx in the SCHIP dialect (`41_control_flow.md` R113). -/
def State.jumpOffset (s : State) (nnn : BitVec 12) : Byte :=
  match s.dialect with
  | .chip8 => s.reg 0
  | .schip => s.reg (topNibble nnn)

/-- `V[x][3:0]`, the low nibble (`45_keys_timers.md` R183, `43_index_memory.md` R152). -/
def State.lowNibble (s : State) (x : Reg) : Nat := (s.reg x).toNat % 16

/-- Key `k` is held (`10_state.md` R45). -/
def State.keyDown (s : State) (k : Nat) : Bool := s.inputs.keysDown.getLsbD k

/-- Key `k` was released (`10_state.md` R45). -/
def State.keyReleased (s : State) (k : Nat) : Bool := s.inputs.keysReleased.getLsbD k

/-- The smallest released key, if any (`45_keys_timers.md` R182). -/
def State.firstReleased (s : State) : Option Nat := (List.range 16).find? s.keyReleased

/-- The address of the glyph of digit `d` (`20_memory.md` R54). -/
def State.glyphAddr (s : State) (d : Nat) : Nat := s.params.fontBase.addr + 5 * d

/-- The effective address `I + k`, never wrapped (`43_index_memory.md` R154). -/
def State.effAddr (s : State) (k : Nat) : Nat := s.i.toNat + k

/-- The decimal digits of a byte, most significant first (`43_index_memory.md` R153). -/
def bcdDigits (b : Byte) : List Byte :=
  [BitVec.ofNat 8 (b.toNat / 100), BitVec.ofNat 8 (b.toNat / 10 % 10), BitVec.ofNat 8 (b.toNat % 10)]

/-- `V0 .. Vx` in ascending order (`43_index_memory.md` R155). -/
def State.regsUpTo (s : State) (x : Reg) : List Byte := s.v.toList.take (x.val + 1)

/-- The dialect-dependent update of `I` after FX55 and FX65 (`43_index_memory.md` R155, R156). -/
def State.autoIncrement (s : State) (x : Reg) : State :=
  match s.dialect with
  | .chip8 => s.setIndex (s.i.toNat + x.val + 1)
  | .schip => s

end Sys2Proof.Machine
end

