-- ==== Sys2Proof/Machine/Alu.lean ====
section
/-! DEFINITION. Loads, arithmetic, logic, shifts and random (`42_alu.md`). -/

namespace Sys2Proof.Machine

/-- 6XNN LD Vx, nn (`42_alu.md` R130). -/
def execLdImm (x : Reg) (nn : Byte) (s : State) : Host.Outcome State Fault Refusal := .next (s.setReg x nn)

/-- 7XNN ADD Vx, nn (`42_alu.md` R131): no flag. -/
def execAddImm (x : Reg) (nn : Byte) (s : State) : Host.Outcome State Fault Refusal :=
  .next (s.setReg x (s.reg x + nn))

/-- 8XY0 LD Vx, Vy (`42_alu.md` R132). -/
def execLdReg (x y : Reg) (s : State) : Host.Outcome State Fault Refusal := .next (s.setReg x (s.reg y))

/-- 8XY1 OR Vx, Vy (`42_alu.md` R133). -/
def execOrReg (x y : Reg) (s : State) : Host.Outcome State Fault Refusal :=
  .next (s.setLogic x (s.reg x ||| s.reg y))

/-- 8XY2 AND Vx, Vy (`42_alu.md` R134). -/
def execAndReg (x y : Reg) (s : State) : Host.Outcome State Fault Refusal :=
  .next (s.setLogic x (s.reg x &&& s.reg y))

/-- 8XY3 XOR Vx, Vy (`42_alu.md` R135). -/
def execXorReg (x y : Reg) (s : State) : Host.Outcome State Fault Refusal :=
  .next (s.setLogic x (s.reg x ^^^ s.reg y))

/-- 8XY4 ADD Vx, Vy (`42_alu.md` R136). -/
def execAddReg (x y : Reg) (s : State) : Host.Outcome State Fault Refusal :=
  .next (s.setResultFlag x (s.reg x + s.reg y) (carry (s.reg x) (s.reg y)))

/-- 8XY5 SUB Vx, Vy (`42_alu.md` R137). -/
def execSub (x y : Reg) (s : State) : Host.Outcome State Fault Refusal :=
  .next (s.setResultFlag x (s.reg x - s.reg y) (noBorrow (s.reg x) (s.reg y)))

/-- 8XY6 SHR Vx, Vy (`42_alu.md` R138). -/
def execShr (x y : Reg) (s : State) : Host.Outcome State Fault Refusal :=
  .next (s.setResultFlag x (s.shiftSource x y >>> 1) (bitOutRight (s.shiftSource x y)))

/-- 8XY7 SUBN Vx, Vy (`42_alu.md` R139). -/
def execSubn (x y : Reg) (s : State) : Host.Outcome State Fault Refusal :=
  .next (s.setResultFlag x (s.reg y - s.reg x) (noBorrow (s.reg y) (s.reg x)))

/-- 8XYE SHL Vx, Vy (`42_alu.md` R140). -/
def execShl (x y : Reg) (s : State) : Host.Outcome State Fault Refusal :=
  .next (s.setResultFlag x (s.shiftSource x y <<< 1) (bitOutLeft (s.shiftSource x y)))

/-- CXNN RND Vx, nn (`42_alu.md` R144): the byte is the free value of `State.rngSample`. -/
def execRnd (x : Reg) (nn : Byte) (s : State) : Host.Outcome State Fault Refusal :=
  .next ((s.setReg x (s.rngSample &&& nn)).countSample)

end Sys2Proof.Machine
end

