-- ==== Sys2Proof/Machine/Control.lean ====
section
/-! DEFINITION. Control transfer (`41_control_flow.md`). In every rule `pc` is already advanced. -/

namespace Sys2Proof.Machine

/-- 00EE RET (`41_control_flow.md` R110). -/
def execRet (s : State) : Host.Outcome State Fault Refusal :=
  match s.pop with
  | some (a, t) => .next (t.setPc a)
  | none => .next (s.raiseIn .ret .stackUnderflow)

/-- 1NNN JP nnn (`41_control_flow.md` R111). -/
def execJp (nnn : BitVec 12) (s : State) : Host.Outcome State Fault Refusal := .next (s.setPc (nnn.setWidth 16))

/-- 2NNN CALL nnn (`41_control_flow.md` R112). -/
def execCall (nnn : BitVec 12) (s : State) : Host.Outcome State Fault Refusal :=
  match s.push s.pc with
  | some t => .next (t.setPc (nnn.setWidth 16))
  | none => .next (s.raiseIn (.call nnn) .stackOverflow)

/-- BNNN JP V0, nnn (`41_control_flow.md` R113): the sum is stored whole. -/
def execJpV0 (nnn : BitVec 12) (s : State) : Host.Outcome State Fault Refusal :=
  .next (s.setPc (BitVec.ofNat 16 (nnn.toNat + (s.jumpOffset nnn).toNat)))

/-- 3XNN SE Vx, nn (`41_control_flow.md` R114). -/
def execSeImm (x : Reg) (nn : Byte) (s : State) : Host.Outcome State Fault Refusal :=
  .next (s.skipIf (s.reg x == nn))

/-- 4XNN SNE Vx, nn (`41_control_flow.md` R115). -/
def execSneImm (x : Reg) (nn : Byte) (s : State) : Host.Outcome State Fault Refusal :=
  .next (s.skipIf (s.reg x != nn))

/-- 5XY0 SE Vx, Vy (`41_control_flow.md` R116). -/
def execSeReg (x y : Reg) (s : State) : Host.Outcome State Fault Refusal := .next (s.skipIf (s.reg x == s.reg y))

/-- 9XY0 SNE Vx, Vy (`41_control_flow.md` R117). -/
def execSneReg (x y : Reg) (s : State) : Host.Outcome State Fault Refusal := .next (s.skipIf (s.reg x != s.reg y))

end Sys2Proof.Machine
end

