-- ==== Sys2Proof/Machine/Draw.lean ====
section
/-! DEFINITION. The sprite engine: DXYN, the edge policy and collision detection (`44_draw.md`). -/

namespace Sys2Proof.Machine

/-- What happens past an edge. -/
inductive EdgeMode where
  | wrap
  | clip
  deriving DecidableEq, Repr

/-- `EdgeMode()` (`44_draw.md` R173). -/
def State.edgeMode (s : State) : EdgeMode :=
  match s.params.edgePolicy, s.dialect with
  | .alwaysWrap, _ => .wrap
  | .alwaysClip, _ => .clip
  | .byDialect, .chip8 => .wrap
  | .byDialect, .schip => .clip

/-- Where a sprite pixel at column `px`, row `py` lands: wrapped, or `none` when clipped (`44_draw.md` R170). -/
def State.place (s : State) (px py : Nat) : Option (Nat × Nat) :=
  match s.edgeMode with
  | .wrap => some (px % s.width, py % s.height)
  | .clip => if px < s.width ∧ py < s.height then some (px, py) else none

/-- Sprite bit at row `row`, column `col` from the left: bit `7 - col` of the byte at `I + row` (`44_draw.md` R170). -/
def State.spriteBit (s : State) (row col : Nat) : Bool := (s.readByte (s.effAddr row)).getLsbD (7 - col)

/-- `x0 = V[x] mod W`, `y0 = V[y] mod H` under every policy. -/
def State.origin (s : State) (x y : Reg) : Nat × Nat := ((s.reg x).toNat % s.width, (s.reg y).toNat % s.height)

/-- The screen positions the sprite touches, in the order row by row, column by column: its bits that are 1 and are not
clipped. -/
def State.spritePixels (s : State) (x y : Reg) (n : Nat) : List (Nat × Nat) :=
  (List.range n).flatMap fun row => (List.range 8).filterMap fun col =>
    if s.spriteBit row col then s.place ((s.origin x y).1 + col) ((s.origin x y).2 + row) else none

/-- The screen while a sprite is drawn: pixels, `coll`, `changed`. -/
structure Drawing where
  fb : Vector (BitVec 128) 64
  coll : Bool
  changed : Bool
  deriving DecidableEq, Repr

/-- Flip one pixel, noting a collision with a lit one. -/
def Drawing.touch (d : Drawing) (p : Nat × Nat) : Drawing where
  fb := flipPixel d.fb p.1 p.2
  coll := d.coll || pixelOf d.fb p.1 p.2
  changed := true

/-- Touch every position of the sprite in order. -/
def State.drawing (s : State) (x y : Reg) (n : Nat) : Drawing :=
  (s.spritePixels x y n).foldl Drawing.touch ⟨s.fb, false, false⟩

/-- The draw that executes: gate shut, pixels flipped, VF the collision flag, dirty if a pixel changed. -/
def State.drawSprite (s : State) (x y : Reg) (n : Nat) : State :=
  let d := s.drawing x y n
  (((s.setGate false).setScreen d.fb).setReg VF (flagByte d.coll)).setDirty (s.dirty || d.changed)

/-- DXYN DRW Vx, Vy, n (`44_draw.md` R170): the gate first, then the range, then the draw. -/
def execDrw (x y : Reg) (n : Nat) (s : State) : Host.Outcome State Fault Refusal :=
  if s.gateOpen then
    if rangeOk (s.effAddr 0) n then .next (s.drawSprite x y n)
    else .next (s.raiseIn (.drw x y n) (.memoryOutOfBounds (lastAddr (s.effAddr 0) n)))
  else .next s.hold

end Sys2Proof.Machine
end

