-- ==== Sys2Proof/Machine/IndexMemory.lean ====
section
/-! DEFINITION. The index register and memory (`43_index_memory.md`). -/

namespace Sys2Proof.Machine

/-- ANNN LD I, nnn (`43_index_memory.md` R150). -/
def execLdI (nnn : BitVec 12) (s : State) : Host.Outcome State Fault Refusal := .next (s.setIndex nnn.toNat)

/-- FX1E ADD I, Vx (`43_index_memory.md` R151). -/
def execAddI (x : Reg) (s : State) : Host.Outcome State Fault Refusal :=
  .next (s.setIndex (s.i.toNat + (s.reg x).toNat))

/-- FX29 LD F, Vx (`43_index_memory.md` R152). -/
def execLdF (x : Reg) (s : State) : Host.Outcome State Fault Refusal := .next (s.setIndex (s.glyphAddr (s.lowNibble x)))

/-- FX33 LD B, Vx (`43_index_memory.md` R153): the range is checked before any byte is written. -/
def execLdB (x : Reg) (s : State) : Host.Outcome State Fault Refusal :=
  if rangeOk (s.effAddr 0) 3 then .next (s.writeBytes (s.effAddr 0) (bcdDigits (s.reg x)))
  else .next (s.raiseIn (.ldB x) (.memoryOutOfBounds (lastAddr (s.effAddr 0) 3)))

/-- FX55 LD [I], Vx (`43_index_memory.md` R155). -/
def execStoreRegs (x : Reg) (s : State) : Host.Outcome State Fault Refusal :=
  if rangeOk (s.effAddr 0) (x.val + 1) then .next ((s.writeBytes (s.effAddr 0) (s.regsUpTo x)).autoIncrement x)
  else .next (s.raiseIn (.storeRegs x) (.memoryOutOfBounds (lastAddr (s.effAddr 0) (x.val + 1))))

/-- FX65 LD Vx, [I] (`43_index_memory.md` R156). -/
def execLoadRegs (x : Reg) (s : State) : Host.Outcome State Fault Refusal :=
  if rangeOk (s.effAddr 0) (x.val + 1) then
    .next ((s.setRegsUpTo x fun k => s.readByte (s.effAddr k)).autoIncrement x)
  else .next (s.raiseIn (.loadRegs x) (.memoryOutOfBounds (lastAddr (s.effAddr 0) (x.val + 1))))

end Sys2Proof.Machine
end

