-- ==== Sys2Proof/Machine/KeysTimers.lean ====
section
/-! DEFINITION. Keypad and timer instructions (`45_keys_timers.md`). -/

namespace Sys2Proof.Machine

/-- EX9E SKP Vx (`45_keys_timers.md` R180). -/
def execSkp (x : Reg) (s : State) : Host.Outcome State Fault Refusal := .next (s.skipIf (s.keyDown (s.lowNibble x)))

/-- EXA1 SKNP Vx (`45_keys_timers.md` R181). -/
def execSknp (x : Reg) (s : State) : Host.Outcome State Fault Refusal := .next (s.skipIf (!s.keyDown (s.lowNibble x)))

/-- FX0A LD Vx, K (`45_keys_timers.md` R182): hold until a release is seen. -/
def execLdVxK (x : Reg) (s : State) : Host.Outcome State Fault Refusal :=
  match s.firstReleased with
  | some k => .next (s.setReg x (BitVec.ofNat 8 k))
  | none => .next s.hold

/-- FX07 LD Vx, DT (`45_keys_timers.md` R184). -/
def execLdVxDT (x : Reg) (s : State) : Host.Outcome State Fault Refusal := .next (s.setReg x s.dt)

/-- FX15 LD DT, Vx (`45_keys_timers.md` R185). -/
def execLdDTVx (x : Reg) (s : State) : Host.Outcome State Fault Refusal := .next (s.setDelay (s.reg x))

/-- FX18 LD ST, Vx (`45_keys_timers.md` R186). -/
def execLdSTVx (x : Reg) (s : State) : Host.Outcome State Fault Refusal := .next (s.setSound (s.reg x))

end Sys2Proof.Machine
end

