-- ==== Sys2Proof/Machine/System.lean ====
section
/-! DEFINITION. Machine control: 00E0, 00FD, 00FE, 00FF (`40_system.md`). -/

namespace Sys2Proof.Machine

/-- 00E0 CLS (`40_system.md` R100). -/
def execCls (s : State) : Host.Outcome State Fault Refusal := .next (s.clearScreen.setDirty true)

/-- 00FD EXIT (`40_system.md` R101). -/
def execExit (s : State) : Host.Outcome State Fault Refusal := .next (s.setStatus .halted)

/-- Select a resolution: SCHIP dialect, `hires`, blank screen, dirty (`40_system.md` R102, R103). -/
def State.reallocate (s : State) (h : Bool) : State := ((s.selectResolution h).clearScreen).setDirty true

/-- 00FE LOW (`40_system.md` R102). -/
def execLow (s : State) : Host.Outcome State Fault Refusal := .next (s.reallocate false)

/-- 00FF HIGH (`40_system.md` R103). -/
def execHigh (s : State) : Host.Outcome State Fault Refusal := .next (s.reallocate true)

end Sys2Proof.Machine
end

