-- ==== Sys2Proof/Machine/Events.lean ====
section
/-! DEFINITION. The events that are not slots: TimerTick, GateOpen, DirtyAck, input change and Reset. They act in every
`status` (`60_exceptions.md` R216). -/

namespace Sys2Proof.Machine

/-- One counter's tick: down by one if it is greater than zero (`60_exceptions.md` R215). -/
def tickCounter (b : Byte) : Byte := if b.toNat > 0 then b - 1 else b

/-- TimerTick (`60_exceptions.md` R215). -/
def timerTick (s : State) : State := (s.setDelay (tickCounter s.dt)).setSound (tickCounter s.st)

/-- GateOpen (`44_draw.md` R171). -/
def gateOpenEvent (s : State) : State := s.setGate true

/-- DirtyAck (`10_state.md` R37). -/
def dirtyAck (s : State) : State := s.setDirty false

/-- The host sets the level inputs (`10_state.md` R44). -/
def inputChange (levels : Config.Inputs) (s : State) : State := { s with inputs := levels }

/-- Main memory after Reset: the background and the first 3584 bytes of the ROM at 0x200 (`70_reset_and_hazards.md`
R240). -/
def romCells (p : Config.Params) (rom : List Byte) : List Host.Cell :=
  Memory.cellsFrom (background p) Config.progBase (rom.take Config.romMax)

/-- The state Reset builds under given parameters and ROM (`70_reset_and_hazards.md` R240, `10_state.md` R47). -/
def resetState (p : Config.Params) (rom : List Byte) : State :=
  { State.reset with
    params := p
    mem := romCells p rom
    romTruncated := decide (rom.length > Config.romMax) }

/-- The Reset event (`70_reset_and_hazards.md` R240, R241): the core is rebuilt whole, whatever it was. The parameters,
the input levels, the schedule and the count of random samples are not state of the core and stay (log 7). -/
def resetEvent (rom : List Byte) (s : State) : State :=
  { resetState s.params rom with
    inputs := s.inputs
    rngCount := s.rngCount
    schedule := s.schedule
    beyond := s.beyond }

end Sys2Proof.Machine
end

