-- ==== Sys2Proof/Machine/Slot.lean ====
section
/-! DEFINITION. The instruction slot (`30_encoding.md` R70, priorities of `60_exceptions.md` R208), what each host event
does, and how a word is put where the next slot fetches it. -/

namespace Sys2Proof.Machine

/-- Execute a fetched word; `pc` is already advanced (`30_encoding.md` R70, R76, R80). -/
def runWord (w : Word) (s : State) : Host.Outcome State Fault Refusal :=
  match decodeWord w with
  | .ok i => exec i s
  | .error _ => .next (s.doUnknown w)

/-- `Slot()` (`30_encoding.md` R70). -/
def slot (s : State) : Host.Outcome State Fault Refusal :=
  match s.status with
  | .halted | .faulted => .next s
  | .running =>
    if s.inputs.powerOffReq then .next (s.setStatus .halted)
    else
      match s.fetch with
      | none => .next s.raiseFetch
      | some w => runWord w s.advance

/-- One atomic event (`00_scope.md` section 3). -/
def hostEvent (e : Config.HostEvent) (s : State) : Host.Outcome State Fault Refusal :=
  match e with
  | .slot => slot s
  | .timerTick => .next (timerTick s)
  | .gateOpen => .next (gateOpenEvent s)
  | .dirtyAck => .next (dirtyAck s)
  | .inputChange levels => .next (inputChange levels s)
  | .reset rom => .next (resetEvent rom s)

/-- The event that comes next and the state with it taken off the schedule (`60_exceptions.md` R217, log 1, log 2). -/
def State.nextEvent (s : State) : Config.HostEvent × State :=
  match s.schedule with
  | e :: rest => (e, { s with schedule := rest })
  | [] =>
    match s.beyond with
    | .slots => (.slot, s)
    | .free k => (Config.hostEvent k, { s with beyond := .free (k + 1) })

/-- The next event is known to be a slot. -/
def State.nextIsSlot (s : State) : Bool :=
  match s.schedule with
  | .slot :: _ => true
  | _ :: _ => false
  | [] =>
    match s.beyond with
    | .slots => true
    | .free _ => false

/-- Make the next event a slot in which the core fetches: running, not asked to power off, `pc` in range. -/
def State.readyToFetch (s : State) : State :=
  { s with
    status := .running
    inputs := { s.inputs with powerOffReq := false }
    pc := if s.pc.toNat + 1 > 4095 then 0x200 else s.pc
    schedule := if s.nextIsSlot then s.schedule else .slot :: s.schedule }

/-- The state made ready, with the word at `pc`. -/
def State.placeNext (s : State) (w : Word) : State := s.readyToFetch.placeWord s.readyToFetch.pc.toNat w

end Sys2Proof.Machine
end

