-- ==== Sys2Proof/Machine/Step.lean ====
section
/-! DEFINITION. One step of the machine is one atomic event (`20_memory.md` R61, `60_exceptions.md` R217). -/

namespace Sys2Proof.Machine

/-- Take the next event and let it act. -/
def step (s : State) : Host.Outcome State Fault Refusal := hostEvent s.nextEvent.1 s.nextEvent.2

/-- For the host: the state with the word `w` of `nbits` bits stored where the next slot fetches (log 9). -/
def State.withFetchWord (s : State) (nbits w : Nat) : State := s.placeNext (BitVec.ofNat 16 (w % 2 ^ nbits))

end Sys2Proof.Machine
end

