-- ==== Sys2Proof/Machine/Ports.lean ====
section
/-! DEFINITION. The output ports of `10_state.md` R43: functions of the state; reading one has no side effect. The
ports `dirty`, `fault_*`, `unk_*` and `rom_truncated` are the fields of those names. -/

namespace Sys2Proof.Machine

/-- `pixel(x, y)` for a pixel that exists, `none` outside the screen (`10_state.md` R36). -/
def State.portPixel (s : State) (x y : Nat) : Option Bool :=
  if x < s.width ∧ y < s.height then some (s.pixel x y) else none

/-- `fb_width`. -/
def State.portFbWidth (s : State) : Nat := s.width

/-- `fb_height`. -/
def State.portFbHeight (s : State) : Nat := s.height

/-- `delay_value`. -/
def State.portDelayValue (s : State) : Byte := s.dt

/-- `sound_value`. -/
def State.portSoundValue (s : State) : Byte := s.st

/-- `sound_on`: 1 iff `ST != 0`. -/
def State.portSoundOn (s : State) : Bool := s.st != 0

/-- `status`: Running 0, Halted 1, Faulted 2 (`10_state.md` R39). -/
def State.portStatus (s : State) : BitVec 2 :=
  match s.status with
  | .running => 0
  | .halted => 1
  | .faulted => 2

/-- `depth` (`10_state.md` R30). -/
def State.portDepth (s : State) : Nat := s.sp.val

end Sys2Proof.Machine
end

