-- ==== Sys2Proof/Safety.lean ====
section
/-! DEFINITION. The terms claims are stated in: the parts of the state and what leaves a part unchanged, the invariant of
the machine, and what a safe state is. -/

namespace Sys2Proof.Machine

/-- The parts of the state, one for each piece that an event can leave alone. -/
inductive Part where
  | reg (x : Reg)
  | pc
  | index
  | callStack
  | delay
  | sound
  | dialect
  | hires
  | screen
  | dirty
  | byteAt (a : Nat)
  | gate
  | status
  | faultRecord
  | unknownReport
  | romTruncated
  | params
  | inputs
  | rngCount
  | schedule
  deriving DecidableEq, Repr

/-- The part reads the same in both states: memory through the read of one byte, the screen through the read of one
pixel. -/
def Part.same (s t : State) : Part → Prop
  | .reg x => t.reg x = s.reg x
  | .pc => t.pc = s.pc
  | .index => t.i = s.i
  | .callStack => t.sp = s.sp ∧ t.stack = s.stack
  | .delay => t.dt = s.dt
  | .sound => t.st = s.st
  | .dialect => t.dialect = s.dialect
  | .hires => t.hires = s.hires
  | .screen => ∀ x y, t.pixel x y = s.pixel x y
  | .dirty => t.dirty = s.dirty
  | .byteAt a => t.readByte a = s.readByte a
  | .gate => t.gateOpen = s.gateOpen
  | .status => t.status = s.status
  | .faultRecord =>
    t.faultCode = s.faultCode ∧ t.faultPc = s.faultPc ∧ t.faultOpcode = s.faultOpcode ∧ t.faultAddr = s.faultAddr
  | .unknownReport => t.unkFlag = s.unkFlag ∧ t.unkOpcode = s.unkOpcode ∧ t.unkPc = s.unkPc
  | .romTruncated => t.romTruncated = s.romTruncated
  | .params => t.params = s.params
  | .inputs => t.inputs = s.inputs
  | .rngCount => t.rngCount = s.rngCount
  | .schedule => t.schedule = s.schedule ∧ t.beyond = s.beyond

/-- Every part outside `touched` is the same in `t` as in `s`. -/
def UnchangedBut (touched : Part → Prop) (s t : State) : Prop := ∀ p : Part, touched p ∨ p.same s t

/-- The state holds the fault record of kind `code` (`60_exceptions.md` R205). -/
def State.faultedWith (t : State) (code : BitVec 3) (pcAtStart opcode addr : Word) : Prop :=
  t.status = .faulted ∧ t.faultCode = code ∧ t.faultPc = pcAtStart ∧ t.faultOpcode = opcode ∧ t.faultAddr = addr

/-- The invariant: what every state after Reset keeps (`10_state.md` R25, R26, R33, R34, R40, R41; log 10, log 15). -/
structure State.Inv (s : State) : Prop where
  /-- Memory is in canonical form. -/
  memory : Memory.wf (background s.params) s.mem = true
  /-- `0 <= I <= 4095` (R26). -/
  index : s.i.toNat ≤ 4095
  /-- The largest value `pc` can hold (R25). -/
  pc : s.pc.toNat ≤ 0x10FE
  /-- Every stack entry is 0 or the address after a fetched instruction (R25, R27). -/
  stack : ∀ k : Fin 16, s.stack[k.val].toNat ≤ 4096
  /-- No pixel outside the screen is lit (R34). -/
  screen : ∀ x y, (s.width ≤ x ∨ s.height ≤ y) → s.pixel x y = false
  /-- The pair CHIP8 and 128x64 does not occur (R33). -/
  resolution : s.dialect = .chip8 → s.hires = false
  /-- The fault record is 0 until a fault, and names one of the four kinds after it (R40, R200). -/
  notFaulted : s.status ≠ .faulted → s.faultCode = 0 ∧ s.faultPc = 0 ∧ s.faultOpcode = 0 ∧ s.faultAddr = 0
  faulted : s.status = .faulted → 1 ≤ s.faultCode.toNat ∧ s.faultCode.toNat ≤ 4
  /-- The report registers are 0 until an unknown opcode (R41). -/
  report : s.unkFlag = false → s.unkOpcode = 0 ∧ s.unkPc = 0

/-- A safe state: no fault has stopped the core (`92_eei_decisions.md` D7: a faulted state is never a good final
state). -/
def State.safe (s : State) : Prop := s.status ≠ .faulted

/-- No unknown opcode has been met (`30_encoding.md` R80: `unk_flag == 0` as a premise or a postcondition). -/
def State.clean (s : State) : Prop := s.unkFlag = false

/-- A run of `k` steps that meets neither a fault nor an unknown opcode. -/
def safeRun : Nat → State → Prop
  | 0, s => s.safe ∧ s.clean
  | k + 1, s => s.safe ∧ s.clean ∧ ∃ t, step s = .next t ∧ safeRun k t

/-- The kinds of event the host orders (`60_exceptions.md` R217). -/
inductive EventKind where
  | slot
  | timerTick
  | gateOpen
  | dirtyAck
  | inputChange
  | reset
  deriving DecidableEq, Repr

/-- The kind of an event: an input change of any levels, a Reset with any ROM. -/
def kindOf : Config.HostEvent → EventKind
  | .slot => .slot
  | .timerTick => .timerTick
  | .gateOpen => .gateOpen
  | .dirtyAck => .dirtyAck
  | .inputChange _ => .inputChange
  | .reset _ => .reset

/-- Fairness of an unending schedule: every kind of event keeps occurring (`60_exceptions.md` R217). -/
def Fair (events : Nat → Config.HostEvent) : Prop :=
  ∀ (kind : EventKind) (n : Nat), ∃ m, n ≤ m ∧ kindOf (events m) = kind

/-- The `k`-th event to come, counted from 0: the scheduled ones, then what `beyond` says. -/
def State.eventAt (s : State) (k : Nat) : Config.HostEvent :=
  match s.schedule[k]? with
  | some e => e
  | none =>
    match s.beyond with
    | .slots => .slot
    | .free j => Config.hostEvent (j + (k - s.schedule.length))

/-- The events to come are a fair schedule, which R217 promises while the host keeps running. `step` does not force it: a
claim of liveness takes it as its premise (log 19). -/
def State.fair (s : State) : Prop := Fair s.eventAt

end Sys2Proof.Machine
end

