-- ==== Sys2Proof/Certificates/Slice0/Obligations.lean ====
section
/-! DEFINITION. The statements for the provers. `exec i s` is the execute phase of a slot: the `pc` of `s` is already
advanced (`30_encoding.md` R72), so an instruction at address `a` sees `pc = a + 2`. -/

open Sys2Proof Sys2Proof.Machine

namespace Sys2Proof.Claims

/-- The word numbered `n` decodes to `i`. -/
def Decodes (n : Nat) (i : Instr) : Prop := decodeWord (BitVec.ofNat 16 n) = .ok i

/-- The word numbered `n` is unknown (`30_encoding.md` R79). -/
def IsUnknown (n : Nat) : Prop := decodeWord (BitVec.ofNat 16 n) = .error (.unknownOpcode (BitVec.ofNat 16 n))

/-- `i` run in `s` answers a next state, and that state satisfies `P`. -/
def Completes (i : Instr) (s : State) (P : State → Prop) : Prop := ∃ t, exec i s = .next t ∧ P t

/-- One general register and nothing else. -/
def justReg (x : Reg) (p : Part) : Prop := p = .reg x

/-- One general register, VF, and nothing else. -/
def regAndFlag (x : Reg) (p : Part) : Prop := p = .reg x ∨ p = .reg VF

/-- `pc` and nothing else. -/
def justPc (p : Part) : Prop := p = .pc

/-- What fault entry writes (`60_exceptions.md` R205). -/
def faultParts (p : Part) : Prop := p = .status ∨ p = .faultRecord

/-- The registers an instruction names as its destination. -/
def isDestination (i : Instr) (r : Reg) : Prop :=
  match i with
  | .ldImm x _ | .addImm x _ | .rnd x _ => r = x
  | .ldReg x _ | .orReg x _ | .andReg x _ | .xorReg x _ | .addReg x _ | .sub x _ | .shr x _ | .subn x _ | .shl x _ => r = x
  | .ldVxDT x | .ldVxK x => r = x
  | .loadRegs x => r.val ≤ x.val
  | _ => False

/-- The instructions that write VF as a side effect, and when: the table of `10_state.md` R22. -/
def writesFlag (i : Instr) (s : State) : Prop :=
  match i with
  | .orReg _ _ | .andReg _ _ | .xorReg _ _ => s.dialect = .chip8
  | .addReg _ _ | .sub _ _ | .shr _ _ | .subn _ _ | .shl _ _ => True
  | .drw _ _ _ => s.gateOpen = true
  | _ => False

/-- 00EE, 1NNN, 2NNN, BNNN set `pc` (`10_state.md` R24). -/
def setsPc (i : Instr) : Prop :=
  match i with
  | .ret | .jp _ | .call _ | .jpV0 _ => True
  | _ => False

/-- 3XNN, 4XNN, 5XY0, 9XY0, EX9E, EXA1 add 2 to `pc` when their condition holds (`10_state.md` R24). -/
def mayskip (i : Instr) : Prop :=
  match i with
  | .seImm _ _ | .sneImm _ _ | .seReg _ _ | .sneReg _ _ | .skp _ | .sknp _ => True
  | _ => False

/-- FX0A and DXYN subtract 2 from `pc` when they hold (`10_state.md` R24). -/
def mayHold (i : Instr) : Prop :=
  match i with
  | .ldVxK _ | .drw _ _ _ => True
  | _ => False

/-- The instructions whose effect depends on `dialect` (`10_state.md` R32), and the two that write it. -/
def usesDialect (i : Instr) (s : State) : Prop :=
  match i with
  | .orReg _ _ | .andReg _ _ | .xorReg _ _ | .shr _ _ | .shl _ _ | .jpV0 _ | .storeRegs _ | .loadRegs _ => True
  | .drw _ _ _ => s.params.edgePolicy = .byDialect
  | .low | .high => True
  | _ => False

/-- The instructions that sample a level input (`10_state.md` R44). -/
def samplesInput (i : Instr) : Prop :=
  match i with
  | .skp _ | .sknp _ | .ldVxK _ | .rnd _ _ => True
  | _ => False

/-- A pixel past an edge wraps (`44_draw.md` R173). -/
def wrapsAtEdge (s : State) : Prop :=
  s.params.edgePolicy = .alwaysWrap ∨ (s.params.edgePolicy = .byDialect ∧ s.dialect = .chip8)

/-- Sprite bit (`row`, `col`) of a sprite at (Vx, Vy) lands on the pixel of column `px`, row `py` (`44_draw.md` R170). -/
def lands (s : State) (x y : Reg) (row col px py : Nat) : Prop :=
  (wrapsAtEdge s ∧ px = ((s.reg x).toNat % s.width + col) % s.width ∧
      py = ((s.reg y).toNat % s.height + row) % s.height) ∨
  (¬wrapsAtEdge s ∧ px = (s.reg x).toNat % s.width + col ∧ py = (s.reg y).toNat % s.height + row)

/-- A pixel of the screen on which a sprite bit that is 1 lands; column 0 of a sprite row is bit 7 (`44_draw.md` R170). -/
def covers (s : State) (x y : Reg) (n px py : Nat) : Prop :=
  px < s.width ∧ py < s.height ∧
    ∃ row col, row < n ∧ col < 8 ∧ (s.readByte (s.i.toNat + row)).getLsbD (7 - col) = true ∧ lands s x y row col px py

/-- Push a list of values one after the other. -/
def pushAll : List Word → State → Option State
  | [], s => some s
  | v :: vs, s => (s.push v).bind (pushAll vs)

/-- `n` TimerTicks. -/
def ticks : Nat → State → State
  | 0, s => s
  | n + 1, s => ticks n (timerTick s)

end Sys2Proof.Claims

open Sys2Proof.Claims

/-! ### Encoding -/

/-- The words of `95_test_vectors.md` T30.11, one an instruction, decode as that vector says, and the words of T30.5 to
T30.9 are unknown. A sanity statement. -/
def Obligations.SpecVectorWordsDecode : Prop :=
  (Decodes 0x00E0 .cls ∧ Decodes 0x00EE .ret ∧ Decodes 0x00FD .exit ∧ Decodes 0x00FE .low ∧ Decodes 0x00FF .high ∧
    Decodes 0x1ABC (.jp 0xABC) ∧ Decodes 0x2ABC (.call 0xABC) ∧ Decodes 0x3A12 (.seImm 10 0x12) ∧
    Decodes 0x5AB0 (.seReg 10 11) ∧ Decodes 0x6A12 (.ldImm 10 0x12) ∧ Decodes 0x8AB4 (.addReg 10 11) ∧
    Decodes 0x8ABE (.shl 10 11) ∧ Decodes 0xAABC (.ldI 0xABC) ∧ Decodes 0xDAB5 (.drw 10 11 5) ∧
    Decodes 0xEAA1 (.sknp 10) ∧ Decodes 0xFA55 (.storeRegs 10) ∧ Decodes 0xFA65 (.loadRegs 10)) ∧
  (IsUnknown 0x0000 ∧ IsUnknown 0x00E1 ∧ IsUnknown 0x5121 ∧ IsUnknown 0x912F ∧ IsUnknown 0x8128 ∧ IsUnknown 0xE19F ∧
    IsUnknown 0xF130)

/-- Decoding the encoding of a well-formed instruction gives it back, as a word and as bytes in memory order. -/
def Obligations.EncodedInstructionsDecodeBack : Prop :=
  ∀ i : Instr, i.wellFormed = true →
    decodeWord (encode i) = .ok i ∧ ∀ rest, decode (bytesOfWord (encode i) ++ rest) = .ok (i, rest)

/-- A word that decodes is the encoding of what it decodes to: no two words are one instruction and no bit is dropped. -/
def Obligations.DecodedWordsEncodeBack : Prop :=
  ∀ (w : Word) (i : Instr), decodeWord w = .ok i → i.wellFormed = true ∧ encode i = w

/-- The decoder and the table of masks and matches agree on every word, and the rows are disjoint (`30_encoding.md` R76;
that every fixed digit is compared is the spec's decision D11). -/
def Obligations.DecoderAgreesWithOpcodeMap : Prop :=
  ∀ w : Word,
    (∀ r ∈ opcodeRows, ∀ r' ∈ opcodeRows, r.covers w = true → r'.covers w = true → r = r') ∧
    (∀ i, decodeWord w = .ok i → ∃ r ∈ opcodeRows, r.covers w = true ∧ r.mnemonic = i.mnemonic) ∧
    ((∀ r ∈ opcodeRows, r.covers w = false) ↔ decodeWord w = .error (.unknownOpcode w))

/-! ### The slot and the step -/

/-- A step that is a slot fetches two bytes big-endian, advances `pc` by 2 and only then executes: the decoded
instruction, or the unknown-opcode action (`30_encoding.md` R72). -/
def Obligations.StepAdvancesPcThenRunsDecodedWord : Prop :=
  ∀ (s : State) (w : Word), s.nextEvent.1 = .slot → s.status = .running → s.inputs.powerOffReq = false →
    s.pc.toNat ≤ 4094 → w.toNat = 0x100 * (s.readByte s.pc.toNat).toNat + (s.readByte (s.pc.toNat + 1)).toNat →
    ∃ u : State, u.pc = s.pc + 2 ∧ UnchangedBut (fun p => p = .pc ∨ p = .schedule) s u ∧
      (∀ i, decodeWord w = .ok i → step s = exec i u) ∧
      (∀ e, decodeWord w = .error e → step s = .next (u.doUnknown w))

/-- Events come in the order of the schedule, then slots only or the free events, as the state says (the form of the
schedule is the model's choice, log 1 and log 2; `60_exceptions.md` R217 leaves the order open). -/
def Obligations.StepTakesTheNextScheduledEvent : Prop :=
  ∀ s : State,
    (∀ e rest, s.schedule = e :: rest → step s = hostEvent e { s with schedule := rest }) ∧
    (s.schedule = [] → s.beyond = .slots → step s = slot s) ∧
    (∀ k, s.schedule = [] → s.beyond = .free k →
      step s = hostEvent (Config.hostEvent k) { s with beyond := .free (k + 1) })

/-- A slot of a core that is not running does nothing; a running core that samples `power_off_req` halts without a fetch
(`60_exceptions.md` R208 steps 1 and 2; the order is the spec's decision D31). -/
def Obligations.SlotTestsStatusThenPowerOff : Prop :=
  ∀ s : State,
    (s.status ≠ .running → slot s = .next s) ∧
    (s.status = .running → s.inputs.powerOffReq = true → slot s = .next { s with status := .halted })

/-- A fetch at `pc >= 4095` faults with `pc` as it was; at `pc <= 4094` it reads the big-endian word (`20_memory.md` R57;
the record's numbers are the spec's decision D8). -/
def Obligations.FetchFaultsAtEndOfMemory : Prop :=
  ∀ s : State, s.status = .running → s.inputs.powerOffReq = false →
    (4095 ≤ s.pc.toNat → slot s = .next
      { s with
        status := .faulted, faultCode := 1, faultPc := s.pc, faultOpcode := 0,
        faultAddr := BitVec.ofNat 16 (s.pc.toNat + 1) }) ∧
    (s.pc.toNat ≤ 4094 → ∃ w, s.fetch = some w ∧
      w.toNat = 0x100 * (s.readByte s.pc.toNat).toNat + (s.readByte (s.pc.toNat + 1)).toNat)

/-- An unknown opcode fills the report; under `ReportAndContinue` nothing else changes, under `Halt` it faults with code 4
and keeps the report (`30_encoding.md` R80, `60_exceptions.md` R204; the spec's decision D10). -/
def Obligations.UnknownOpcodeIsReported : Prop :=
  ∀ (s : State) (w : Word),
    (s.doUnknown w).unkFlag = true ∧ (s.doUnknown w).unkOpcode = w ∧ (s.doUnknown w).unkPc = s.pc - 2 ∧
    (s.params.unknownPolicy = .reportAndContinue → UnchangedBut (fun p => p = .unknownReport) s (s.doUnknown w)) ∧
    (s.params.unknownPolicy = .halt →
      (s.doUnknown w).faultedWith 4 (s.pc - 2) w 0 ∧
      UnchangedBut (fun p => p = .unknownReport ∨ faultParts p) s (s.doUnknown w))

/-- A held slot changes nothing: FX0A with no key released, DXYN with the gate shut (`30_encoding.md` R73; that DXYN holds
in this way is the spec's decision D18). -/
def Obligations.HeldSlotChangesNothing : Prop :=
  ∀ (s : State) (i : Instr), s.status = .running → s.inputs.powerOffReq = false → s.pc.toNat ≤ 4094 →
    decodeWord (wordOfBytes (s.readByte s.pc.toNat) (s.readByte (s.pc.toNat + 1))) = .ok i →
    ((∃ x, i = .ldVxK x) ∧ s.inputs.keysReleased = 0 ∨ (∃ x y n, i = .drw x y n) ∧ s.gateOpen = false) →
    slot s = .next s

/-- Every step answers a next state: no instruction, event or fault of the spec stops the model (a fault is the state with
`status = Faulted`, log 11). -/
def Obligations.EveryStepAnswersNext : Prop := ∀ s : State, ∃ t, step s = .next t

/-! ### Machine control -/

/-- 00E0 blanks the screen and marks it dirty (`40_system.md` R100, which clears the current geometry; that the stored pixels
outside it are off too is the model's choice, log 15). -/
def Obligations.ClsBlanksTheScreen : Prop :=
  Decodes 0x00E0 .cls ∧
  ∀ s : State, Completes .cls s fun t =>
    (∀ x y, t.pixel x y = false) ∧ t.dirty = true ∧ UnchangedBut (fun p => p = .screen ∨ p = .dirty) s t

/-- 00FD halts, keeps everything else (the dialect too: the spec's decision D33), and the slots after it do nothing
(`40_system.md` R101). -/
def Obligations.ExitHaltsTheCore : Prop :=
  Decodes 0x00FD .exit ∧
  ∀ s : State, Completes .exit s fun t =>
    t.status = .halted ∧ UnchangedBut (fun p => p = .status) s t ∧ slot t = .next t

/-- 00FE and 00FF set the SCHIP dialect, select 64x32 and 128x64, blank the screen and mark it dirty (`40_system.md` R102,
R103; which word is which, and the blank screen, are the spec's decisions D14 and D15; that the stored pixels outside the
new geometry are off too is the model's choice, log 15). -/
def Obligations.LowAndHighSelectTheResolution : Prop :=
  Decodes 0x00FE .low ∧ Decodes 0x00FF .high ∧
  ∀ s : State,
    (Completes .low s fun t =>
      t.dialect = .schip ∧ t.hires = false ∧ t.width = 64 ∧ t.height = 32 ∧ (∀ x y, t.pixel x y = false) ∧
      t.dirty = true ∧
      UnchangedBut (fun p => p = .dialect ∨ p = .hires ∨ p = .screen ∨ p = .dirty) s t) ∧
    (Completes .high s fun t =>
      t.dialect = .schip ∧ t.hires = true ∧ t.width = 128 ∧ t.height = 64 ∧ (∀ x y, t.pixel x y = false) ∧
      t.dirty = true ∧
      UnchangedBut (fun p => p = .dialect ∨ p = .hires ∨ p = .screen ∨ p = .dirty) s t)

/-! ### Control transfer -/

/-- 00EE pops the top entry into `pc`; the entries keep their content; on an empty stack it faults and leaves the stack and
`pc` alone (`41_control_flow.md` R110, `10_state.md` R29, `60_exceptions.md` R203; that the fault halts the core and has
code 3 are the spec's decisions D7 and D8). -/
def Obligations.RetPopsTheTopEntry : Prop :=
  Decodes 0x00EE .ret ∧
  ∀ s : State,
    (∀ h : 0 < s.sp.val, Completes .ret s fun t =>
      t.pc = s.stack[s.sp.val - 1] ∧ t.sp.val + 1 = s.sp.val ∧ t.stack = s.stack ∧
      UnchangedBut (fun p => p = .pc ∨ p = .callStack) s t) ∧
    (s.sp.val = 0 → Completes .ret s fun t =>
      t.status = .faulted ∧ t.faultCode = 3 ∧ t.faultOpcode = 0x00EE ∧ t.pc = t.faultPc + 2 ∧ UnchangedBut faultParts s t)

/-- 1NNN (`41_control_flow.md` R111). -/
def Obligations.JpSetsPcToTheAddress : Prop :=
  ∀ nnn : BitVec 12, Decodes (0x1000 + nnn.toNat) (.jp nnn) ∧
  ∀ s : State, Completes (.jp nnn) s fun t => t.pc.toNat = nnn.toNat ∧ UnchangedBut justPc s t

/-- 2NNN pushes the advanced `pc` and jumps; on a full stack it faults, pushes nothing and does not jump
(`41_control_flow.md` R112, `10_state.md` R28, `60_exceptions.md` R202; that the fault halts the core and has code 2 are the
spec's decisions D7 and D8). -/
def Obligations.CallPushesTheReturnAddress : Prop :=
  ∀ nnn : BitVec 12, Decodes (0x2000 + nnn.toNat) (.call nnn) ∧
  ∀ s : State,
    (∀ h : s.sp.val < 16, Completes (.call nnn) s fun t =>
      t.pc.toNat = nnn.toNat ∧ t.sp.val = s.sp.val + 1 ∧ t.stack[s.sp.val] = s.pc ∧
      (∀ k : Fin 16, k.val ≠ s.sp.val → t.stack[k.val] = s.stack[k.val]) ∧
      UnchangedBut (fun p => p = .pc ∨ p = .callStack) s t) ∧
    (s.sp.val = 16 → Completes (.call nnn) s fun t =>
      t.status = .faulted ∧ t.faultCode = 2 ∧ t.faultOpcode.toNat = 0x2000 + nnn.toNat ∧ t.pc = t.faultPc + 2 ∧
      UnchangedBut faultParts s t)

/-- BNNN adds V0 (CHIP8) or Vx with x the top digit of nnn (SCHIP); the sum is stored whole (`41_control_flow.md` R113; the
unreduced sum is the spec's decision D5). -/
def Obligations.JpV0AddsTheDialectsRegister : Prop :=
  ∀ (nnn : BitVec 12) (x : Reg), nnn.toNat / 0x100 = x.val →
  Decodes (0xB000 + nnn.toNat) (.jpV0 nnn) ∧
  ∀ s : State, Completes (.jpV0 nnn) s fun t =>
    (s.dialect = .chip8 → t.pc.toNat = nnn.toNat + (s.reg 0).toNat) ∧
    (s.dialect = .schip → t.pc.toNat = nnn.toNat + (s.reg x).toNat) ∧
    UnchangedBut justPc s t

/-- 3XNN and 4XNN: each skips exactly when the other does not (`41_control_flow.md` R114, R115). -/
def Obligations.ImmediateSkipsCompareTheRegister : Prop :=
  ∀ (x : Reg) (nn : Byte),
    Decodes (0x3000 + 0x100 * x.val + nn.toNat) (.seImm x nn) ∧
    Decodes (0x4000 + 0x100 * x.val + nn.toNat) (.sneImm x nn) ∧
    ∀ s : State,
      (Completes (.seImm x nn) s fun t =>
        ((s.reg x).toNat = nn.toNat → t.pc = s.pc + 2) ∧ ((s.reg x).toNat ≠ nn.toNat → t.pc = s.pc) ∧
        UnchangedBut justPc s t) ∧
      (Completes (.sneImm x nn) s fun t =>
        ((s.reg x).toNat ≠ nn.toNat → t.pc = s.pc + 2) ∧ ((s.reg x).toNat = nn.toNat → t.pc = s.pc) ∧
        UnchangedBut justPc s t)

/-- 5XY0 and 9XY0, and that 5XYn and 9XYn with n not 0 are unknown (`41_control_flow.md` R116, R117; that these words are
unknown and no aliases is the spec's decision D11). -/
def Obligations.RegisterSkipsCompareTwoRegisters : Prop :=
  ∀ x y : Reg,
    Decodes (0x5000 + 0x100 * x.val + 0x10 * y.val) (.seReg x y) ∧
    Decodes (0x9000 + 0x100 * x.val + 0x10 * y.val) (.sneReg x y) ∧
    (∀ n, 1 ≤ n → n ≤ 15 →
      IsUnknown (0x5000 + 0x100 * x.val + 0x10 * y.val + n) ∧ IsUnknown (0x9000 + 0x100 * x.val + 0x10 * y.val + n)) ∧
    ∀ s : State,
      (Completes (.seReg x y) s fun t =>
        ((s.reg x).toNat = (s.reg y).toNat → t.pc = s.pc + 2) ∧ ((s.reg x).toNat ≠ (s.reg y).toNat → t.pc = s.pc) ∧
        UnchangedBut justPc s t) ∧
      (Completes (.sneReg x y) s fun t =>
        ((s.reg x).toNat ≠ (s.reg y).toNat → t.pc = s.pc + 2) ∧ ((s.reg x).toNat = (s.reg y).toNat → t.pc = s.pc) ∧
        UnchangedBut justPc s t)

/-- Sixteen pushes from an empty stack succeed, a seventeenth fails, the depth port counts them, and a pop of the empty
stack fails (`10_state.md` R30). -/
def Obligations.SixteenPushesSucceedAndNoMore : Prop :=
  ∀ (s : State) (vs : List Word), s.sp.val = 0 →
    s.pop = none ∧
    (vs.length ≤ 16 → ∃ t, pushAll vs s = some t ∧ t.portDepth = vs.length) ∧
    (16 < vs.length → pushAll vs s = none)

/-! ### ALU -/

/-- 6XNN and 8XY0 (`42_alu.md` R130, R132). -/
def Obligations.LoadsWriteOneRegister : Prop :=
  ∀ (x y : Reg) (nn : Byte),
    Decodes (0x6000 + 0x100 * x.val + nn.toNat) (.ldImm x nn) ∧
    Decodes (0x8000 + 0x100 * x.val + 0x10 * y.val) (.ldReg x y) ∧
    ∀ s : State,
      (Completes (.ldImm x nn) s fun t => t.reg x = nn ∧ UnchangedBut (justReg x) s t) ∧
      (Completes (.ldReg x y) s fun t => t.reg x = s.reg y ∧ UnchangedBut (justReg x) s t)

/-- 7XNN wraps and writes no flag (`42_alu.md` R131). -/
def Obligations.AddImmediateWrapsWithoutFlag : Prop :=
  ∀ (x : Reg) (nn : Byte), Decodes (0x7000 + 0x100 * x.val + nn.toNat) (.addImm x nn) ∧
  ∀ s : State, Completes (.addImm x nn) s fun t =>
    (t.reg x).toNat = ((s.reg x).toNat + nn.toNat) % 256 ∧ UnchangedBut (justReg x) s t

/-- 8XY1, 8XY2, 8XY3: the bitwise result; VF is then cleared in the CHIP8 dialect and untouched in the SCHIP dialect
(`42_alu.md` R133 to R135; that the flag is written last, so that it stands for x = F, is the spec's decision D12). -/
def Obligations.LogicClearsFlagInChip8Only : Prop :=
  ∀ (x y : Reg) (i : Instr) (op : Bool → Bool → Bool),
    (i = .orReg x y ∧ op = or) ∨ (i = .andReg x y ∧ op = and) ∨ (i = .xorReg x y ∧ op = xor) →
    ∀ s : State, Completes i s fun t =>
      (s.dialect = .chip8 → t.reg VF = 0 ∧
        (x ≠ VF → ∀ k < 8, (t.reg x).getLsbD k = op ((s.reg x).getLsbD k) ((s.reg y).getLsbD k)) ∧
        UnchangedBut (regAndFlag x) s t) ∧
      (s.dialect = .schip →
        (∀ k < 8, (t.reg x).getLsbD k = op ((s.reg x).getLsbD k) ((s.reg y).getLsbD k)) ∧
        UnchangedBut (justReg x) s t)

/-- 8XY4: VF is 1 exactly when the sum exceeds 255, else 0, and Vx holds the low byte unless x = F (`42_alu.md` R136, S1;
flag last is the spec's decision D12). -/
def Obligations.AddRegistersSetsCarry : Prop :=
  ∀ x y : Reg, Decodes (0x8004 + 0x100 * x.val + 0x10 * y.val) (.addReg x y) ∧
  ∀ s : State, Completes (.addReg x y) s fun t =>
    ((s.reg x).toNat + (s.reg y).toNat > 255 → (t.reg VF).toNat = 1) ∧
    ((s.reg x).toNat + (s.reg y).toNat ≤ 255 → (t.reg VF).toNat = 0) ∧
    (x ≠ VF → (t.reg x).toNat = ((s.reg x).toNat + (s.reg y).toNat) % 256) ∧
    UnchangedBut (regAndFlag x) s t

/-- 8XY5 and 8XY7: VF is 0 exactly on a borrow, else 1; the difference wraps (`42_alu.md` R137, R139, S2; flag last is the
spec's decision D12). -/
def Obligations.SubtractsSetNotBorrow : Prop :=
  ∀ x y : Reg,
    Decodes (0x8005 + 0x100 * x.val + 0x10 * y.val) (.sub x y) ∧
    Decodes (0x8007 + 0x100 * x.val + 0x10 * y.val) (.subn x y) ∧
    ∀ s : State,
      (Completes (.sub x y) s fun t =>
        ((s.reg x).toNat < (s.reg y).toNat → (t.reg VF).toNat = 0) ∧
        ((s.reg y).toNat ≤ (s.reg x).toNat → (t.reg VF).toNat = 1) ∧
        (x ≠ VF → (t.reg x).toNat = ((s.reg x).toNat + 256 - (s.reg y).toNat) % 256) ∧
        UnchangedBut (regAndFlag x) s t) ∧
      (Completes (.subn x y) s fun t =>
        ((s.reg y).toNat < (s.reg x).toNat → (t.reg VF).toNat = 0) ∧
        ((s.reg x).toNat ≤ (s.reg y).toNat → (t.reg VF).toNat = 1) ∧
        (x ≠ VF → (t.reg x).toNat = ((s.reg y).toNat + 256 - (s.reg x).toNat) % 256) ∧
        UnchangedBut (regAndFlag x) s t)

/-- 8XY6 and 8XYE: the source is Vy in the CHIP8 dialect and Vx in the SCHIP dialect; VF is the bit shifted out
(`42_alu.md` R138, R140; the source of 8XYE is the spec's decision D13, flag last its decision D12). -/
def Obligations.ShiftsTakeTheDialectsSource : Prop :=
  ∀ (x y : Reg) (s : State) (v : Nat),
    (s.dialect = .chip8 ∧ v = (s.reg y).toNat) ∨ (s.dialect = .schip ∧ v = (s.reg x).toNat) →
    (Completes (.shr x y) s fun t =>
      (t.reg VF).toNat = v % 2 ∧ (x ≠ VF → (t.reg x).toNat = v / 2) ∧ UnchangedBut (regAndFlag x) s t) ∧
    (Completes (.shl x y) s fun t =>
      (t.reg VF).toNat = v / 128 ∧ (x ≠ VF → (t.reg x).toNat = v * 2 % 256) ∧ UnchangedBut (regAndFlag x) s t)

/-- CXNN: the sampled byte masked by nn, whatever the sample is; a bit that is 0 in nn is 0 in the result, which never
exceeds nn; a known level on the port is the sample (`42_alu.md` R144; the input is the spec's decision D21, the free value
the model's, log 4). -/
def Obligations.RandomByteIsMasked : Prop :=
  ∀ (x : Reg) (nn : Byte), Decodes (0xC000 + 0x100 * x.val + nn.toNat) (.rnd x nn) ∧
  ∀ s : State, Completes (.rnd x nn) s fun t =>
    (∃ b : Byte, t.reg x = b &&& nn ∧ (∀ c, s.inputs.rngByte = some c → b = c) ∧
      (s.inputs.rngByte = none → b = Config.rngByte s.rngCount)) ∧
    (∀ k < 8, nn.getLsbD k = false → (t.reg x).getLsbD k = false) ∧ (t.reg x).toNat ≤ nn.toNat ∧
    t.rngCount = s.rngCount + 1 ∧ UnchangedBut (fun p => p = .reg x ∨ p = .rngCount) s t

/-! ### Index register and memory -/

/-- ANNN (`43_index_memory.md` R150). -/
def Obligations.LoadIndexTakesTheAddress : Prop :=
  ∀ nnn : BitVec 12, Decodes (0xA000 + nnn.toNat) (.ldI nnn) ∧
  ∀ s : State, Completes (.ldI nnn) s fun t => t.i.toNat = nnn.toNat ∧ UnchangedBut (fun p => p = .index) s t

/-- FX1E: the sum modulo 4096 and no flag (`43_index_memory.md` R151; the mask is the spec's decision D4, no flag its
decision D24). -/
def Obligations.AddIndexWrapsWithoutFlag : Prop :=
  ∀ x : Reg, Decodes (0xF01E + 0x100 * x.val) (.addI x) ∧
  ∀ s : State, Completes (.addI x) s fun t =>
    t.i.toNat = (s.i.toNat + (s.reg x).toNat) % 4096 ∧ UnchangedBut (fun p => p = .index) s t

/-- FX29: the glyph of the low nibble, for both values of FONT_BASE (`43_index_memory.md` R152; the low nibble is the
spec's decision D19, the glyph address its decision D35). -/
def Obligations.FontAddressOfTheLowDigit : Prop :=
  ∀ x : Reg, Decodes (0xF029 + 0x100 * x.val) (.ldF x) ∧
  ∀ s : State, Completes (.ldF x) s fun t =>
    (s.params.fontBase = .at000 → t.i.toNat = 5 * ((s.reg x).toNat % 16)) ∧
    (s.params.fontBase = .at050 → t.i.toNat = 0x50 + 5 * ((s.reg x).toNat % 16)) ∧
    UnchangedBut (fun p => p = .index) s t

/-- FX33: three decimal digits, the most significant at the lowest address, and no other byte (`43_index_memory.md` R153;
the digit order is the spec's decision D23). -/
def Obligations.BcdStoresThreeDigits : Prop :=
  ∀ (x : Reg) (s : State), Memory.wf (background s.params) s.mem = true → s.effAddr 2 ≤ 4095 →
    Completes (.ldB x) s fun t =>
      (t.readByte (s.effAddr 0)).toNat = (s.reg x).toNat / 100 ∧
      (t.readByte (s.effAddr 1)).toNat = (s.reg x).toNat / 10 % 10 ∧
      (t.readByte (s.effAddr 2)).toNat = (s.reg x).toNat % 10 ∧
      100 * (t.readByte (s.effAddr 0)).toNat + 10 * (t.readByte (s.effAddr 1)).toNat +
        (t.readByte (s.effAddr 2)).toNat = (s.reg x).toNat ∧
      UnchangedBut (fun p => ∃ k ≤ 2, p = .byteAt (s.effAddr k)) s t

/-- FX55: V0 to Vx at I, I+1, ..., no other byte; I moves in the CHIP8 dialect only (`43_index_memory.md` R155). -/
def Obligations.StoreRegistersWritesTheBlock : Prop :=
  ∀ (x : Reg) (s : State), Memory.wf (background s.params) s.mem = true → s.effAddr x.val ≤ 4095 →
    Completes (.storeRegs x) s fun t =>
      (∀ k : Reg, k.val ≤ x.val → t.readByte (s.effAddr k.val) = s.reg k) ∧
      (s.dialect = .chip8 → t.i.toNat = (s.i.toNat + x.val + 1) % 4096) ∧ (s.dialect = .schip → t.i = s.i) ∧
      UnchangedBut (fun p => (∃ k ≤ x.val, p = .byteAt (s.effAddr k)) ∨ p = .index) s t

/-- FX65: V0 to Vx from I, I+1, ..., no other register; I moves in the CHIP8 dialect only (`43_index_memory.md` R156). -/
def Obligations.LoadRegistersReadsTheBlock : Prop :=
  ∀ (x : Reg) (s : State), s.effAddr x.val ≤ 4095 →
    Completes (.loadRegs x) s fun t =>
      (∀ k : Reg, k.val ≤ x.val → t.reg k = s.readByte (s.effAddr k.val)) ∧
      (s.dialect = .chip8 → t.i.toNat = (s.i.toNat + x.val + 1) % 4096) ∧ (s.dialect = .schip → t.i = s.i) ∧
      UnchangedBut (fun p => (∃ k : Reg, k.val ≤ x.val ∧ p = .reg k) ∨ p = .index) s t

/-- FX55 then FX65 with the same x and index restores V0 to Vx, whatever else changed between them but memory
(`95_test_vectors.md` S8, `90_conflicts.md` C8). -/
def Obligations.StoreThenLoadRestoresRegisters : Prop :=
  ∀ (x : Reg) (s t u : State), Memory.wf (background s.params) s.mem = true → s.effAddr x.val ≤ 4095 →
    exec (.storeRegs x) s = .next t → u.mem = t.mem → u.params = t.params → u.i = s.i →
    Completes (.loadRegs x) u fun w => ∀ k : Reg, k.val ≤ x.val → w.reg k = s.reg k

/-- Every fault an instruction raises fills the record with its code, the address of the instruction, the word and, for a
range that runs past 4095, the last address of the range; nothing else changes: FX33, FX55, FX65, DXYN with the gate open,
00EE on an empty stack, 2NNN on a full one (`60_exceptions.md` R200, R201, R206; the codes, the record and the absence of
partial effects are the spec's decisions D8 and D9). -/
def Obligations.ExecuteFaultsFillTheRecord : Prop :=
  ∀ (s : State) (x y : Reg) (nnn : BitVec 12) (i : Instr) (code : BitVec 3) (word addr : Nat),
    (s.sp.val = 0 ∧ i = .ret ∧ code = 3 ∧ word = 0x00EE ∧ addr = 0) ∨
    (s.sp.val = 16 ∧ i = .call nnn ∧ code = 2 ∧ word = 0x2000 + nnn.toNat ∧ addr = 0) ∨
    (4095 < addr ∧ code = 1 ∧
      ((i = .ldB x ∧ addr = s.i.toNat + 2 ∧ word = 0xF033 + 0x100 * x.val) ∨
       (i = .storeRegs x ∧ addr = s.i.toNat + x.val ∧ word = 0xF055 + 0x100 * x.val) ∨
       (i = .loadRegs x ∧ addr = s.i.toNat + x.val ∧ word = 0xF065 + 0x100 * x.val) ∨
       (s.gateOpen = true ∧ ∃ n, 1 ≤ n ∧ n ≤ 15 ∧ i = .drw x y n ∧ addr = s.i.toNat + n - 1 ∧
         word = 0xD000 + 0x100 * x.val + 0x10 * y.val + n))) →
    Completes i s fun t =>
      t.faultedWith code (s.pc - 2) (BitVec.ofNat 16 word) (BitVec.ofNat 16 addr) ∧ UnchangedBut faultParts s t

/-- Two canonical memories that read the same everywhere are the same data (the canonical form is the model's choice,
log 10). -/
def Obligations.EqualReadsMeanEqualMemory : Prop :=
  ∀ (bg : Nat → Byte) (m m' : List Host.Cell), Memory.wf bg m = true → Memory.wf bg m' = true →
    (∀ a, Memory.read bg m a = Memory.read bg m' a) → m = m'

/-! ### The sprite engine -/

/-- DXYN inverts exactly the pixels the sprite covers; VF is 1 exactly when a covered pixel was lit, else 0; dirty is set
exactly when a pixel is covered; the gate shuts (`44_draw.md` R170, R172 to R175; the edge policy, the origin, the gate and
n = 0 are the spec's decisions D16, D17, D18, D32). -/
def Obligations.DrawInvertsTheCoveredPixels : Prop :=
  ∀ (s : State) (x y : Reg) (n : Nat), n ≤ 15 → s.gateOpen = true → (n = 0 ∨ s.i.toNat + n ≤ 4096) →
    Completes (.drw x y n) s fun t =>
      (∀ px py, covers s x y n px py → t.pixel px py = !s.pixel px py) ∧
      (∀ px py, ¬covers s x y n px py → t.pixel px py = s.pixel px py) ∧
      ((∃ px py, covers s x y n px py ∧ s.pixel px py = true) → t.reg VF = 1) ∧
      ((¬∃ px py, covers s x y n px py ∧ s.pixel px py = true) → t.reg VF = 0) ∧
      (t.dirty = true ↔ s.dirty = true ∨ ∃ px py, covers s x y n px py) ∧
      t.gateOpen = false ∧
      UnchangedBut (fun p => p = .reg VF ∨ p = .screen ∨ p = .dirty ∨ p = .gate) s t

/-- Drawing the same sprite twice at the same coordinates restores the screen; on a blank screen VF is 0 after the first
draw and, if the sprite covers a pixel, 1 after the second (`95_test_vectors.md` S7). Between the draws the gate is opened
and VF set to any value `f` that leaves both coordinates as they were: for x or y = F that is the value before the first
draw, otherwise any value at all. -/
def Obligations.DrawingTwiceRestoresTheScreen : Prop :=
  ∀ (s : State) (x y : Reg) (n : Nat), n ≤ 15 → s.gateOpen = true → (n = 0 ∨ s.i.toNat + n ≤ 4096) →
    Completes (.drw x y n) s fun t =>
      ((∀ px py, s.pixel px py = false) → t.reg VF = 0) ∧
      ∀ f : Byte, ((gateOpenEvent t).setReg VF f).reg x = s.reg x → ((gateOpenEvent t).setReg VF f).reg y = s.reg y →
        Completes (.drw x y n) ((gateOpenEvent t).setReg VF f) fun u =>
          (∀ px py, u.pixel px py = s.pixel px py) ∧
          ((∃ px py, covers s x y n px py ∧ s.pixel px py = false) → u.reg VF = 1)

/-! ### Keypad and timers -/

/-- EX9E and EXA1 test the key of the low nibble of Vx; each skips exactly when the other does not
(`45_keys_timers.md` R180, R181; the low nibble is the spec's decision D19). -/
def Obligations.KeySkipsTestTheHeldKey : Prop :=
  ∀ x : Reg, Decodes (0xE09E + 0x100 * x.val) (.skp x) ∧ Decodes (0xE0A1 + 0x100 * x.val) (.sknp x) ∧
  ∀ (s : State) (k : Nat), k = (s.reg x).toNat % 16 →
    (Completes (.skp x) s fun t =>
      (s.inputs.keysDown.getLsbD k = true → t.pc = s.pc + 2) ∧
      (s.inputs.keysDown.getLsbD k = false → t.pc = s.pc) ∧ UnchangedBut justPc s t) ∧
    (Completes (.sknp x) s fun t =>
      (s.inputs.keysDown.getLsbD k = false → t.pc = s.pc + 2) ∧
      (s.inputs.keysDown.getLsbD k = true → t.pc = s.pc) ∧ UnchangedBut justPc s t)

/-- FX0A writes the smallest released key and leaves the advanced `pc`; with no key released it only puts `pc` back
(`45_keys_timers.md` R182; the smallest key is the spec's decision D20). -/
def Obligations.KeyWaitTakesTheSmallestReleasedKey : Prop :=
  ∀ x : Reg, Decodes (0xF00A + 0x100 * x.val) (.ldVxK x) ∧
  ∀ s : State,
    (∀ k < 16, s.inputs.keysReleased.getLsbD k = true → (∀ j < k, s.inputs.keysReleased.getLsbD j = false) →
      Completes (.ldVxK x) s fun t => (t.reg x).toNat = k ∧ UnchangedBut (justReg x) s t) ∧
    ((∀ k < 16, s.inputs.keysReleased.getLsbD k = false) →
      Completes (.ldVxK x) s fun t => t.pc = s.pc - 2 ∧ UnchangedBut justPc s t)

/-- FX07, FX15, FX18, and `sound_on` after FX18 (`45_keys_timers.md` R184 to R186; which word is which is the spec's
decision D22, `sound_on` its decision D34). -/
def Obligations.TimerInstructionsMoveTheCounters : Prop :=
  ∀ x : Reg,
    Decodes (0xF007 + 0x100 * x.val) (.ldVxDT x) ∧ Decodes (0xF015 + 0x100 * x.val) (.ldDTVx x) ∧
    Decodes (0xF018 + 0x100 * x.val) (.ldSTVx x) ∧
    ∀ s : State,
      (Completes (.ldVxDT x) s fun t => t.reg x = s.dt ∧ UnchangedBut (justReg x) s t) ∧
      (Completes (.ldDTVx x) s fun t => t.dt = s.reg x ∧ UnchangedBut (fun p => p = .delay) s t) ∧
      (Completes (.ldSTVx x) s fun t =>
        t.st = s.reg x ∧ (t.portSoundOn = true ↔ (s.reg x).toNat ≠ 0) ∧ UnchangedBut (fun p => p = .sound) s t)

/-- TimerTick takes 1 from each counter that is greater than zero and writes nothing else, whatever `status` is
(`60_exceptions.md` R215). -/
def Obligations.TimerTickDecrementsTowardZero : Prop :=
  ∀ s : State, ∃ t, hostEvent .timerTick s = .next t ∧
    (0 < s.dt.toNat → t.dt.toNat + 1 = s.dt.toNat) ∧ (s.dt.toNat = 0 → t.dt.toNat = 0) ∧
    (0 < s.st.toNat → t.st.toNat + 1 = s.st.toNat) ∧ (s.st.toNat = 0 → t.st.toNat = 0) ∧
    UnchangedBut (fun p => p = .delay ∨ p = .sound) s t

/-- After n ticks each counter is down by n and stays at 0: a program that waits for 0 gets there after that many ticks
(`45_keys_timers.md` R185, `70_reset_and_hazards.md` R254). -/
def Obligations.CountersReachZeroAndStay : Prop :=
  ∀ (n : Nat) (s : State), (ticks n s).dt.toNat = s.dt.toNat - n ∧ (ticks n s).st.toNat = s.st.toNat - n

/-! ### Which instruction may write which state -/

/-- A general register changes only as a destination, or, VF, as the flag of an instruction of the table of R22
(`10_state.md` R21, R22). -/
def Obligations.RegistersChangeOnlyAsListed : Prop :=
  ∀ (i : Instr) (s t : State) (r : Reg), exec i s = .next t → t.reg r ≠ s.reg r →
    isDestination i r ∨ (r = VF ∧ writesFlag i s)

/-- `pc` keeps the advanced value but for the instructions that set it, skip, or hold (`10_state.md` R24). -/
def Obligations.PcChangesOnlyAsListed : Prop :=
  ∀ (i : Instr) (s t : State), exec i s = .next t →
    t.pc = s.pc ∨ setsPc i ∨ (mayskip i ∧ t.pc = s.pc + 2) ∨ (mayHold i ∧ t.pc = s.pc - 2)

/-- `I` is written by ANNN, FX1E, FX29, and by FX55 and FX65 in the CHIP8 dialect, and every write is masked to 12 bits
(`10_state.md` R26; the mask at every write is the spec's decision D4). -/
def Obligations.IndexChangesOnlyAsListed : Prop :=
  ∀ (i : Instr) (s t : State), exec i s = .next t → t.i ≠ s.i →
    t.i.toNat ≤ 4095 ∧
    ((∃ nnn, i = .ldI nnn) ∨ (∃ x, i = .addI x) ∨ (∃ x, i = .ldF x) ∨
      (s.dialect = .chip8 ∧ ∃ x, i = .storeRegs x ∨ i = .loadRegs x))

/-- A byte of memory changes only under FX33 and FX55, and only inside the block they store (`20_memory.md` R60). -/
def Obligations.MemoryChangesOnlyInTheStoredBlock : Prop :=
  ∀ (i : Instr) (s t : State) (a : Nat), exec i s = .next t → t.readByte a ≠ s.readByte a →
    (∃ x, i = .ldB x ∧ s.effAddr 0 ≤ a ∧ a ≤ s.effAddr 2) ∨
    (∃ x : Reg, i = .storeRegs x ∧ s.effAddr 0 ≤ a ∧ a ≤ s.effAddr x.val)

/-- Pixels change only under 00E0, 00FE, 00FF and DXYN, which then leave `dirty` set, and no instruction clears `dirty`
(`10_state.md` R34, R35; `dirty` after 00FE and 00FF is the spec's decision D15). -/
def Obligations.ScreenChangesAreMarkedDirty : Prop :=
  ∀ (i : Instr) (s t : State), exec i s = .next t →
    (s.dirty = true → t.dirty = true) ∧
    ((∃ px py, t.pixel px py ≠ s.pixel px py) →
      t.dirty = true ∧ (i = .cls ∨ i = .low ∨ i = .high ∨ ∃ x y n, i = .drw x y n))

/-- What else an instruction may write: the stack by 00EE and 2NNN; the timers by FX15 and FX18; the dialect and the
resolution by 00FE and 00FF; the gate by DXYN, which only shuts it (`10_state.md` R27, R31 to R33, `44_draw.md` R172). -/
def Obligations.ControlStateChangesOnlyAsListed : Prop :=
  ∀ (i : Instr) (s t : State), exec i s = .next t →
    (t.sp ≠ s.sp ∨ t.stack ≠ s.stack → i = .ret ∨ ∃ nnn, i = .call nnn) ∧
    (t.dt ≠ s.dt → ∃ x, i = .ldDTVx x) ∧ (t.st ≠ s.st → ∃ x, i = .ldSTVx x) ∧
    (t.dialect ≠ s.dialect ∨ t.hires ≠ s.hires → (i = .low ∨ i = .high) ∧ t.dialect = .schip) ∧
    (t.gateOpen ≠ s.gateOpen → t.gateOpen = false ∧ ∃ x y n, i = .drw x y n)

/-- No instruction writes the key vectors or any input, the parameters, the schedule, `rom_truncated` or the unknown-opcode
report; `status` changes only to Halted by 00FD or to Faulted (`10_state.md` R39, R41, R42, R45). The
parameters and the schedule are no state of the core (`00_scope.md` section 3): that State holds them, in fields no instruction
writes, is the model's choice, log 5 and log 1. -/
def Obligations.HostStateIsNotWrittenByInstructions : Prop :=
  ∀ (i : Instr) (s t : State), exec i s = .next t →
    UnchangedBut (fun p => ¬(p = .inputs ∨ p = .params ∨ p = .schedule ∨ p = .romTruncated ∨ p = .unknownReport)) s t ∧
    (t.status ≠ s.status → t.status = .faulted ∨ (i = .exit ∧ t.status = .halted))

/-- Only the listed instructions depend on `dialect`: any other does the same with the bit flipped (`10_state.md` R32; the
draw's dependence is the spec's decision D16). -/
def Obligations.DialectReachesOnlyListedInstructions : Prop :=
  ∀ (i : Instr) (s t : State) (d : Dialect), exec i s = .next t → ¬usesDialect i s →
    exec i { s with dialect := d } = .next { t with dialect := d }

/-- Only EX9E, EXA1, FX0A and CXNN depend on the level inputs (`10_state.md` R44; the ports are the spec's decision D1). -/
def Obligations.InputsReachOnlySamplingInstructions : Prop :=
  ∀ (i : Instr) (s t : State) (levels : Config.Inputs), exec i s = .next t → ¬samplesInput i →
    exec i { s with inputs := levels } = .next { t with inputs := levels }

/-! ### Faults, reset and the whole machine -/

/-- Faults are precise: the slot that faults changes nothing but `status`, the record and, when the fault comes from
execute, `pc` (and the unknown-opcode report under Halt); the record holds the address the slot began at and the fetched
word (`60_exceptions.md` R205, R206; the spec's decisions D7, D8, D9, D10). -/
def Obligations.FaultsArePrecise : Prop :=
  ∀ s t : State, slot s = .next t → s.status = .running → t.status = .faulted →
    t.faultPc = s.pc ∧ 1 ≤ t.faultCode.toNat ∧ t.faultCode.toNat ≤ 4 ∧
    ((4095 ≤ s.pc.toNat ∧ t.pc = s.pc ∧ t.faultOpcode = 0) ∨
      (s.pc.toNat ≤ 4094 ∧ t.pc = s.pc + 2 ∧
        t.faultOpcode.toNat = 0x100 * (s.readByte s.pc.toNat).toNat + (s.readByte (s.pc.toNat + 1)).toNat)) ∧
    UnchangedBut
      (fun p => p = .pc ∨ faultParts p ∨ (p = .unknownReport ∧ s.params.unknownPolicy = .halt ∧ t.faultCode = 4)) s t

/-- In Halted and Faulted no slot does anything and the fault record is never overwritten; the timers, the gate, the dirty
flag and the inputs still move; only Reset leaves (`60_exceptions.md` R207, `10_state.md` R39). -/
def Obligations.StoppedCoreKeepsItsStateUntilReset : Prop :=
  ∀ s t : State, step s = .next t → s.status ≠ .running →
    ((∀ rom, s.nextEvent.1 ≠ .reset rom) →
      UnchangedBut (fun p => p = .delay ∨ p = .sound ∨ p = .gate ∨ p = .dirty ∨ p = .inputs ∨ p = .schedule) s t) ∧
    (∀ rom, s.nextEvent.1 = .reset rom → t.status = .running)

/-- The dialect switch is one-way: no event but Reset leaves SCHIP (`70_reset_and_hazards.md` R253). -/
def Obligations.OnlyResetLeavesSchip : Prop :=
  ∀ s t : State, step s = .next t → s.dialect = .schip → (∀ rom, s.nextEvent.1 ≠ .reset rom) → t.dialect = .schip

/-- GateOpen, DirtyAck and an input change each write one thing, in every `status` (`44_draw.md` R171, `10_state.md` R37,
R44; the spec's decisions D18, D28 and D1). -/
def Obligations.OutsideEventsWriteOneThing : Prop :=
  ∀ s : State,
    (∃ t, hostEvent .gateOpen s = .next t ∧ t.gateOpen = true ∧ UnchangedBut (fun p => p = .gate) s t) ∧
    (∃ t, hostEvent .dirtyAck s = .next t ∧ t.dirty = false ∧ UnchangedBut (fun p => p = .dirty) s t) ∧
    (∀ levels, ∃ t, hostEvent (.inputChange levels) s = .next t ∧ t.inputs = levels ∧
      UnchangedBut (fun p => p = .inputs) s t)

/-- Reset rebuilds the whole core from any state: every register and the stack 0, pc 0x200, CHIP8 at 64x32, the font, the
ROM cut to 3584 bytes at 0x200, every other byte 0 (`70_reset_and_hazards.md` R240, R241; the values the source omits are
the spec's decision D25, and that the parameters and the inputs stay is the model's reading, log 7). -/
def Obligations.ResetRebuildsTheCore : Prop :=
  ∀ (s : State) (rom : List Byte), ∃ t, hostEvent (.reset rom) s = .next t ∧
    (∀ x, t.reg x = 0) ∧ t.pc.toNat = 0x200 ∧ t.i.toNat = 0 ∧ t.sp.val = 0 ∧ (∀ k : Fin 16, t.stack[k.val] = 0) ∧
    t.dt = 0 ∧ t.st = 0 ∧ t.dialect = .chip8 ∧ t.hires = false ∧ (∀ x y, t.pixel x y = false) ∧ t.dirty = true ∧
    t.gateOpen = true ∧ t.status = .running ∧
    t.faultCode = 0 ∧ t.faultPc = 0 ∧ t.faultOpcode = 0 ∧ t.faultAddr = 0 ∧
    t.unkFlag = false ∧ t.unkOpcode = 0 ∧ t.unkPc = 0 ∧ (t.romTruncated = true ↔ 3584 < rom.length) ∧
    (∀ j : Fin 80, t.readByte (s.params.fontBase.addr + j.val) = s.params.fontTable[j.val]) ∧
    (∀ (j : Nat) (h : j < rom.length), j < 3584 → t.readByte (0x200 + j) = rom[j]) ∧
    (∀ a, (a < s.params.fontBase.addr ∨ s.params.fontBase.addr + 80 ≤ a) → (a < 0x200 ∨ 0x200 + min rom.length 3584 ≤ a) →
      t.readByte a = 0) ∧
    t.params = s.params ∧ t.inputs = s.inputs ∧ t.Inv

/-- The invariant holds in the state after reset. -/
def Obligations.ResetStateMeetsTheInvariant : Prop := State.reset.Inv

/-- Every event keeps the invariant, from every state that meets it: memory stays canonical, `I` stays in 0..4095, `pc`
stays at most 0x10FE, no pixel outside the screen is lit, CHIP8 is never at 128x64, and the fault record and the report
stay 0 until something is recorded (`10_state.md` R25, R26, R33, R34, R40, R41). -/
def Obligations.StepKeepsTheInvariant : Prop := ∀ s t : State, s.Inv → step s = .next t → t.Inv
end

