-- ==== Sys2Proof/Laws/Encoding.lean ====
section
/-! SUPPORT. The fields of encoded words, and what the masks of the opcode map keep of a word. -/

namespace Sys2Proof

section Fields

variable {op x y n nn nnn : Nat}

theorem toNat_wordXYN (h : op < 16) (hx : x < 16) (hy : y < 16) (hn : n < 16) :
    (wordXYN op x y n).toNat = 0x1000 * op + 0x100 * x + 0x10 * y + n := by
  simp only [wordXYN, BitVec.toNat_ofNat]; omega

theorem toNat_wordXNN (h : op < 16) (hx : x < 16) (hn : nn < 256) :
    (wordXNN op x nn).toNat = 0x1000 * op + 0x100 * x + nn := by
  simp only [wordXNN, BitVec.toNat_ofNat]; omega

theorem toNat_wordNNN (h : op < 16) (hn : nnn < 4096) : (wordNNN op nnn).toNat = 0x1000 * op + nnn := by
  simp only [wordNNN, BitVec.toNat_ofNat]; omega

theorem opField_wordXYN (h : op < 16) (hx : x < 16) (hy : y < 16) (hn : n < 16) :
    opField (wordXYN op x y n) = op := by
  simp only [opField, slice, toNat_wordXYN h hx hy hn]; omega

theorem xField_wordXYN (h : op < 16) (x : Reg) (hy : y < 16) (hn : n < 16) :
    xField (wordXYN op x.val y n) = x := by
  ext; simp only [xField, slice, toNat_wordXYN h x.isLt hy hn, Fin.val_ofNat]; omega

theorem yField_wordXYN (h : op < 16) (hx : x < 16) (y : Reg) (hn : n < 16) :
    yField (wordXYN op x y.val n) = y := by
  ext; simp only [yField, slice, toNat_wordXYN h hx y.isLt hn, Fin.val_ofNat]; omega

theorem nField_wordXYN (h : op < 16) (hx : x < 16) (hy : y < 16) (hn : n < 16) :
    nField (wordXYN op x y n) = n := by
  simp only [nField, slice, toNat_wordXYN h hx hy hn]; omega

theorem opField_wordXNN (h : op < 16) (hx : x < 16) (hn : nn < 256) : opField (wordXNN op x nn) = op := by
  simp only [opField, slice, toNat_wordXNN h hx hn]; omega

theorem xField_wordXNN (h : op < 16) (x : Reg) (hn : nn < 256) : xField (wordXNN op x.val nn) = x := by
  ext; simp only [xField, slice, toNat_wordXNN h x.isLt hn, Fin.val_ofNat]; omega

theorem low8_wordXNN (h : op < 16) (hx : x < 16) (hn : nn < 256) : slice (wordXNN op x nn) 7 0 = nn := by
  simp only [slice, toNat_wordXNN h hx hn]; omega

theorem nnField_wordXNN (h : op < 16) (hx : x < 16) (nn : Byte) : nnField (wordXNN op x nn.toNat) = nn := by
  simp [nnField, low8_wordXNN h hx nn.isLt]

theorem opField_wordNNN (h : op < 16) (hn : nnn < 4096) : opField (wordNNN op nnn) = op := by
  simp only [opField, slice, toNat_wordNNN h hn]; omega

theorem low12_wordNNN (h : op < 16) (hn : nnn < 4096) : slice (wordNNN op nnn) 11 0 = nnn := by
  simp only [slice, toNat_wordNNN h hn]; omega

theorem nnnField_wordNNN (h : op < 16) (nnn : BitVec 12) : nnnField (wordNNN op nnn.toNat) = nnn := by
  simp [nnnField, low12_wordNNN h nnn.isLt]

end Fields

theorem toNat_and_low (w : Word) (k : Nat) (hk : k ≤ 15) :
    (w &&& BitVec.ofNat 16 (2 ^ k - 1)).toNat = w.toNat % 2 ^ k := by
  have h2 : 2 ^ k < 2 ^ 16 := Nat.pow_lt_pow_right (by omega) (by omega)
  have hp : 0 < 2 ^ k := Nat.two_pow_pos k
  rw [BitVec.toNat_and, BitVec.toNat_ofNat, Nat.mod_eq_of_lt (by omega), Nat.and_two_pow_sub_one_eq_mod]

theorem toNat_shr_shl12 (w : Word) : ((w >>> 12) <<< 12).toNat = 0x1000 * opField w := by
  have := w.isLt
  simp only [BitVec.toNat_shiftLeft, BitVec.toNat_ushiftRight, Nat.shiftLeft_eq, Nat.shiftRight_eq_div_pow, opField,
    slice]
  omega

/-- The op mask keeps the top nibble in place. -/
theorem toNat_and_F000 (w : Word) : (w &&& 0xF000#16).toNat = 0x1000 * opField w := by
  rw [← toNat_shr_shl12]
  congr 1
  ext i hi
  interval_cases i <;> simp

theorem toNat_and_split (w a b : Word) (hab : a &&& b = 0#16) :
    (w &&& (a ||| b)).toNat = (w &&& a).toNat + (w &&& b).toNat := by
  have h0 : (w &&& a) &&& (w &&& b) = 0#16 := by
    ext i hi
    have hi' := congrArg (fun v : Word => v[i]) hab
    simp only [BitVec.getElem_and, BitVec.getElem_zero] at hi' ⊢
    cases w[i] <;> simp_all
  have h1 : w &&& (a ||| b) = (w &&& a) + (w &&& b) := by
    rw [BitVec.add_eq_or_of_and_eq_zero _ _ h0]
    ext i hi
    simp only [BitVec.getElem_and, BitVec.getElem_or]
    cases w[i] <;> simp
  have h2 := BitVec.toNat_add_of_and_eq_zero h0
  rw [h1, h2]

/-- The XY mask keeps the top and the bottom nibble. -/
theorem toNat_and_F00F (w : Word) : (w &&& 0xF00F#16).toNat = 0x1000 * opField w + nField w := by
  have h := toNat_and_split w 0xF000#16 0xF#16 rfl
  rw [toNat_and_F000] at h
  have e := toNat_and_low w 4 (by omega)
  simp only [nField, slice]
  have : w.toNat < 65536 := w.isLt
  simp only [show (BitVec.ofNat 16 (2 ^ 4 - 1)) = 0xF#16 from rfl] at e
  rw [e] at h
  rw [show (0xF000#16 ||| 0xF#16) = 0xF00F#16 from rfl] at h
  omega

/-- The X mask keeps the top nibble and the low byte. -/
theorem toNat_and_F0FF (w : Word) : (w &&& 0xF0FF#16).toNat = 0x1000 * opField w + slice w 7 0 := by
  have h := toNat_and_split w 0xF000#16 0xFF#16 rfl
  rw [toNat_and_F000] at h
  have e := toNat_and_low w 8 (by omega)
  simp only [slice]
  simp only [show (BitVec.ofNat 16 (2 ^ 8 - 1)) = 0xFF#16 from rfl] at e
  rw [e] at h
  rw [show (0xF000#16 ||| 0xFF#16) = 0xF0FF#16 from rfl] at h
  omega

/-- A row whose mask is the op nibble covers exactly the words of that nibble. -/
theorem and_F000_eq (w : Word) (p : Word) : (w &&& 0xF000#16 = p) ↔ 0x1000 * opField w = p.toNat := by
  rw [← toNat_and_F000, BitVec.toNat_inj]

theorem and_F00F_eq (w : Word) (p : Word) : (w &&& 0xF00F#16 = p) ↔ 0x1000 * opField w + nField w = p.toNat := by
  rw [← toNat_and_F00F, BitVec.toNat_inj]

theorem and_F0FF_eq (w : Word) (p : Word) : (w &&& 0xF0FF#16 = p) ↔ 0x1000 * opField w + slice w 7 0 = p.toNat := by
  rw [← toNat_and_F0FF, BitVec.toNat_inj]

end Sys2Proof
end

