-- ==== Sys2Proof/Laws/State.lean ====
section
/-! SUPPORT. One lemma per field of `State` per named update, and per accessor the update leaves alone, so that no later
proof unfolds a record update. -/

namespace Sys2Proof.Machine.State

variable (s : State)

/-! ### setReg -/

@[simp] theorem setReg_v (x : Reg) (b : Byte) : (s.setReg x b).v = s.v.set x.val b := rfl
@[simp] theorem setReg_pc (x : Reg) (b : Byte) : (s.setReg x b).pc = s.pc := rfl
@[simp] theorem setReg_i (x : Reg) (b : Byte) : (s.setReg x b).i = s.i := rfl
@[simp] theorem setReg_stack (x : Reg) (b : Byte) : (s.setReg x b).stack = s.stack := rfl
@[simp] theorem setReg_sp (x : Reg) (b : Byte) : (s.setReg x b).sp = s.sp := rfl
@[simp] theorem setReg_dt (x : Reg) (b : Byte) : (s.setReg x b).dt = s.dt := rfl
@[simp] theorem setReg_st (x : Reg) (b : Byte) : (s.setReg x b).st = s.st := rfl
@[simp] theorem setReg_dialect (x : Reg) (b : Byte) : (s.setReg x b).dialect = s.dialect := rfl
@[simp] theorem setReg_hires (x : Reg) (b : Byte) : (s.setReg x b).hires = s.hires := rfl
@[simp] theorem setReg_fb (x : Reg) (b : Byte) : (s.setReg x b).fb = s.fb := rfl
@[simp] theorem setReg_dirty (x : Reg) (b : Byte) : (s.setReg x b).dirty = s.dirty := rfl
@[simp] theorem setReg_mem (x : Reg) (b : Byte) : (s.setReg x b).mem = s.mem := rfl
@[simp] theorem setReg_gateOpen (x : Reg) (b : Byte) : (s.setReg x b).gateOpen = s.gateOpen := rfl
@[simp] theorem setReg_status (x : Reg) (b : Byte) : (s.setReg x b).status = s.status := rfl
@[simp] theorem setReg_faultCode (x : Reg) (b : Byte) : (s.setReg x b).faultCode = s.faultCode := rfl
@[simp] theorem setReg_faultPc (x : Reg) (b : Byte) : (s.setReg x b).faultPc = s.faultPc := rfl
@[simp] theorem setReg_faultOpcode (x : Reg) (b : Byte) : (s.setReg x b).faultOpcode = s.faultOpcode := rfl
@[simp] theorem setReg_faultAddr (x : Reg) (b : Byte) : (s.setReg x b).faultAddr = s.faultAddr := rfl
@[simp] theorem setReg_unkFlag (x : Reg) (b : Byte) : (s.setReg x b).unkFlag = s.unkFlag := rfl
@[simp] theorem setReg_unkOpcode (x : Reg) (b : Byte) : (s.setReg x b).unkOpcode = s.unkOpcode := rfl
@[simp] theorem setReg_unkPc (x : Reg) (b : Byte) : (s.setReg x b).unkPc = s.unkPc := rfl
@[simp] theorem setReg_romTruncated (x : Reg) (b : Byte) : (s.setReg x b).romTruncated = s.romTruncated := rfl
@[simp] theorem setReg_params (x : Reg) (b : Byte) : (s.setReg x b).params = s.params := rfl
@[simp] theorem setReg_inputs (x : Reg) (b : Byte) : (s.setReg x b).inputs = s.inputs := rfl
@[simp] theorem setReg_rngCount (x : Reg) (b : Byte) : (s.setReg x b).rngCount = s.rngCount := rfl
@[simp] theorem setReg_schedule (x : Reg) (b : Byte) : (s.setReg x b).schedule = s.schedule := rfl
@[simp] theorem setReg_beyond (x : Reg) (b : Byte) : (s.setReg x b).beyond = s.beyond := rfl
@[simp] theorem setReg_readByte (x : Reg) (b : Byte) (c : Nat) : (s.setReg x b).readByte c = s.readByte c := rfl
@[simp] theorem setReg_pixel (x : Reg) (b : Byte) (px py : Nat) : (s.setReg x b).pixel px py = s.pixel px py := rfl
@[simp] theorem setReg_width (x : Reg) (b : Byte) : (s.setReg x b).width = s.width := rfl
@[simp] theorem setReg_height (x : Reg) (b : Byte) : (s.setReg x b).height = s.height := rfl
@[simp] theorem setReg_effAddr (x : Reg) (b : Byte) (c : Nat) : (s.setReg x b).effAddr c = s.effAddr c := rfl

/-! ### setRegsUpTo -/

@[simp] theorem setRegsUpTo_pc (x : Reg) (f : Nat → Byte) : (s.setRegsUpTo x f).pc = s.pc := rfl
@[simp] theorem setRegsUpTo_i (x : Reg) (f : Nat → Byte) : (s.setRegsUpTo x f).i = s.i := rfl
@[simp] theorem setRegsUpTo_stack (x : Reg) (f : Nat → Byte) : (s.setRegsUpTo x f).stack = s.stack := rfl
@[simp] theorem setRegsUpTo_sp (x : Reg) (f : Nat → Byte) : (s.setRegsUpTo x f).sp = s.sp := rfl
@[simp] theorem setRegsUpTo_dt (x : Reg) (f : Nat → Byte) : (s.setRegsUpTo x f).dt = s.dt := rfl
@[simp] theorem setRegsUpTo_st (x : Reg) (f : Nat → Byte) : (s.setRegsUpTo x f).st = s.st := rfl
@[simp] theorem setRegsUpTo_dialect (x : Reg) (f : Nat → Byte) : (s.setRegsUpTo x f).dialect = s.dialect := rfl
@[simp] theorem setRegsUpTo_hires (x : Reg) (f : Nat → Byte) : (s.setRegsUpTo x f).hires = s.hires := rfl
@[simp] theorem setRegsUpTo_fb (x : Reg) (f : Nat → Byte) : (s.setRegsUpTo x f).fb = s.fb := rfl
@[simp] theorem setRegsUpTo_dirty (x : Reg) (f : Nat → Byte) : (s.setRegsUpTo x f).dirty = s.dirty := rfl
@[simp] theorem setRegsUpTo_mem (x : Reg) (f : Nat → Byte) : (s.setRegsUpTo x f).mem = s.mem := rfl
@[simp] theorem setRegsUpTo_gateOpen (x : Reg) (f : Nat → Byte) : (s.setRegsUpTo x f).gateOpen = s.gateOpen := rfl
@[simp] theorem setRegsUpTo_status (x : Reg) (f : Nat → Byte) : (s.setRegsUpTo x f).status = s.status := rfl
@[simp] theorem setRegsUpTo_faultCode (x : Reg) (f : Nat → Byte) : (s.setRegsUpTo x f).faultCode = s.faultCode := rfl
@[simp] theorem setRegsUpTo_faultPc (x : Reg) (f : Nat → Byte) : (s.setRegsUpTo x f).faultPc = s.faultPc := rfl
@[simp] theorem setRegsUpTo_faultOpcode (x : Reg) (f : Nat → Byte) : (s.setRegsUpTo x f).faultOpcode = s.faultOpcode := rfl
@[simp] theorem setRegsUpTo_faultAddr (x : Reg) (f : Nat → Byte) : (s.setRegsUpTo x f).faultAddr = s.faultAddr := rfl
@[simp] theorem setRegsUpTo_unkFlag (x : Reg) (f : Nat → Byte) : (s.setRegsUpTo x f).unkFlag = s.unkFlag := rfl
@[simp] theorem setRegsUpTo_unkOpcode (x : Reg) (f : Nat → Byte) : (s.setRegsUpTo x f).unkOpcode = s.unkOpcode := rfl
@[simp] theorem setRegsUpTo_unkPc (x : Reg) (f : Nat → Byte) : (s.setRegsUpTo x f).unkPc = s.unkPc := rfl
@[simp] theorem setRegsUpTo_romTruncated (x : Reg) (f : Nat → Byte) : (s.setRegsUpTo x f).romTruncated = s.romTruncated := rfl
@[simp] theorem setRegsUpTo_params (x : Reg) (f : Nat → Byte) : (s.setRegsUpTo x f).params = s.params := rfl
@[simp] theorem setRegsUpTo_inputs (x : Reg) (f : Nat → Byte) : (s.setRegsUpTo x f).inputs = s.inputs := rfl
@[simp] theorem setRegsUpTo_rngCount (x : Reg) (f : Nat → Byte) : (s.setRegsUpTo x f).rngCount = s.rngCount := rfl
@[simp] theorem setRegsUpTo_schedule (x : Reg) (f : Nat → Byte) : (s.setRegsUpTo x f).schedule = s.schedule := rfl
@[simp] theorem setRegsUpTo_beyond (x : Reg) (f : Nat → Byte) : (s.setRegsUpTo x f).beyond = s.beyond := rfl
@[simp] theorem setRegsUpTo_readByte (x : Reg) (f : Nat → Byte) (c : Nat) : (s.setRegsUpTo x f).readByte c = s.readByte c := rfl
@[simp] theorem setRegsUpTo_pixel (x : Reg) (f : Nat → Byte) (px py : Nat) : (s.setRegsUpTo x f).pixel px py = s.pixel px py := rfl
@[simp] theorem setRegsUpTo_width (x : Reg) (f : Nat → Byte) : (s.setRegsUpTo x f).width = s.width := rfl
@[simp] theorem setRegsUpTo_height (x : Reg) (f : Nat → Byte) : (s.setRegsUpTo x f).height = s.height := rfl
@[simp] theorem setRegsUpTo_effAddr (x : Reg) (f : Nat → Byte) (c : Nat) : (s.setRegsUpTo x f).effAddr c = s.effAddr c := rfl

/-! ### setPc -/

@[simp] theorem setPc_v (a : Word) : (s.setPc a).v = s.v := rfl
@[simp] theorem setPc_pc (a : Word) : (s.setPc a).pc = a := rfl
@[simp] theorem setPc_i (a : Word) : (s.setPc a).i = s.i := rfl
@[simp] theorem setPc_stack (a : Word) : (s.setPc a).stack = s.stack := rfl
@[simp] theorem setPc_sp (a : Word) : (s.setPc a).sp = s.sp := rfl
@[simp] theorem setPc_dt (a : Word) : (s.setPc a).dt = s.dt := rfl
@[simp] theorem setPc_st (a : Word) : (s.setPc a).st = s.st := rfl
@[simp] theorem setPc_dialect (a : Word) : (s.setPc a).dialect = s.dialect := rfl
@[simp] theorem setPc_hires (a : Word) : (s.setPc a).hires = s.hires := rfl
@[simp] theorem setPc_fb (a : Word) : (s.setPc a).fb = s.fb := rfl
@[simp] theorem setPc_dirty (a : Word) : (s.setPc a).dirty = s.dirty := rfl
@[simp] theorem setPc_mem (a : Word) : (s.setPc a).mem = s.mem := rfl
@[simp] theorem setPc_gateOpen (a : Word) : (s.setPc a).gateOpen = s.gateOpen := rfl
@[simp] theorem setPc_status (a : Word) : (s.setPc a).status = s.status := rfl
@[simp] theorem setPc_faultCode (a : Word) : (s.setPc a).faultCode = s.faultCode := rfl
@[simp] theorem setPc_faultPc (a : Word) : (s.setPc a).faultPc = s.faultPc := rfl
@[simp] theorem setPc_faultOpcode (a : Word) : (s.setPc a).faultOpcode = s.faultOpcode := rfl
@[simp] theorem setPc_faultAddr (a : Word) : (s.setPc a).faultAddr = s.faultAddr := rfl
@[simp] theorem setPc_unkFlag (a : Word) : (s.setPc a).unkFlag = s.unkFlag := rfl
@[simp] theorem setPc_unkOpcode (a : Word) : (s.setPc a).unkOpcode = s.unkOpcode := rfl
@[simp] theorem setPc_unkPc (a : Word) : (s.setPc a).unkPc = s.unkPc := rfl
@[simp] theorem setPc_romTruncated (a : Word) : (s.setPc a).romTruncated = s.romTruncated := rfl
@[simp] theorem setPc_params (a : Word) : (s.setPc a).params = s.params := rfl
@[simp] theorem setPc_inputs (a : Word) : (s.setPc a).inputs = s.inputs := rfl
@[simp] theorem setPc_rngCount (a : Word) : (s.setPc a).rngCount = s.rngCount := rfl
@[simp] theorem setPc_schedule (a : Word) : (s.setPc a).schedule = s.schedule := rfl
@[simp] theorem setPc_beyond (a : Word) : (s.setPc a).beyond = s.beyond := rfl
@[simp] theorem setPc_reg (a : Word) (y : Reg) : (s.setPc a).reg y = s.reg y := rfl
@[simp] theorem setPc_readByte (a : Word) (c : Nat) : (s.setPc a).readByte c = s.readByte c := rfl
@[simp] theorem setPc_pixel (a : Word) (px py : Nat) : (s.setPc a).pixel px py = s.pixel px py := rfl
@[simp] theorem setPc_width (a : Word) : (s.setPc a).width = s.width := rfl
@[simp] theorem setPc_height (a : Word) : (s.setPc a).height = s.height := rfl
@[simp] theorem setPc_effAddr (a : Word) (c : Nat) : (s.setPc a).effAddr c = s.effAddr c := rfl

/-! ### advance -/

@[simp] theorem advance_v : (s.advance).v = s.v := rfl
@[simp] theorem advance_pc : (s.advance).pc = s.pc + 2 := rfl
@[simp] theorem advance_i : (s.advance).i = s.i := rfl
@[simp] theorem advance_stack : (s.advance).stack = s.stack := rfl
@[simp] theorem advance_sp : (s.advance).sp = s.sp := rfl
@[simp] theorem advance_dt : (s.advance).dt = s.dt := rfl
@[simp] theorem advance_st : (s.advance).st = s.st := rfl
@[simp] theorem advance_dialect : (s.advance).dialect = s.dialect := rfl
@[simp] theorem advance_hires : (s.advance).hires = s.hires := rfl
@[simp] theorem advance_fb : (s.advance).fb = s.fb := rfl
@[simp] theorem advance_dirty : (s.advance).dirty = s.dirty := rfl
@[simp] theorem advance_mem : (s.advance).mem = s.mem := rfl
@[simp] theorem advance_gateOpen : (s.advance).gateOpen = s.gateOpen := rfl
@[simp] theorem advance_status : (s.advance).status = s.status := rfl
@[simp] theorem advance_faultCode : (s.advance).faultCode = s.faultCode := rfl
@[simp] theorem advance_faultPc : (s.advance).faultPc = s.faultPc := rfl
@[simp] theorem advance_faultOpcode : (s.advance).faultOpcode = s.faultOpcode := rfl
@[simp] theorem advance_faultAddr : (s.advance).faultAddr = s.faultAddr := rfl
@[simp] theorem advance_unkFlag : (s.advance).unkFlag = s.unkFlag := rfl
@[simp] theorem advance_unkOpcode : (s.advance).unkOpcode = s.unkOpcode := rfl
@[simp] theorem advance_unkPc : (s.advance).unkPc = s.unkPc := rfl
@[simp] theorem advance_romTruncated : (s.advance).romTruncated = s.romTruncated := rfl
@[simp] theorem advance_params : (s.advance).params = s.params := rfl
@[simp] theorem advance_inputs : (s.advance).inputs = s.inputs := rfl
@[simp] theorem advance_rngCount : (s.advance).rngCount = s.rngCount := rfl
@[simp] theorem advance_schedule : (s.advance).schedule = s.schedule := rfl
@[simp] theorem advance_beyond : (s.advance).beyond = s.beyond := rfl
@[simp] theorem advance_reg (y : Reg) : (s.advance).reg y = s.reg y := rfl
@[simp] theorem advance_readByte (c : Nat) : (s.advance).readByte c = s.readByte c := rfl
@[simp] theorem advance_pixel (px py : Nat) : (s.advance).pixel px py = s.pixel px py := rfl
@[simp] theorem advance_width : (s.advance).width = s.width := rfl
@[simp] theorem advance_height : (s.advance).height = s.height := rfl
@[simp] theorem advance_effAddr (c : Nat) : (s.advance).effAddr c = s.effAddr c := rfl

/-! ### hold -/

@[simp] theorem hold_v : (s.hold).v = s.v := rfl
@[simp] theorem hold_pc : (s.hold).pc = s.pc - 2 := rfl
@[simp] theorem hold_i : (s.hold).i = s.i := rfl
@[simp] theorem hold_stack : (s.hold).stack = s.stack := rfl
@[simp] theorem hold_sp : (s.hold).sp = s.sp := rfl
@[simp] theorem hold_dt : (s.hold).dt = s.dt := rfl
@[simp] theorem hold_st : (s.hold).st = s.st := rfl
@[simp] theorem hold_dialect : (s.hold).dialect = s.dialect := rfl
@[simp] theorem hold_hires : (s.hold).hires = s.hires := rfl
@[simp] theorem hold_fb : (s.hold).fb = s.fb := rfl
@[simp] theorem hold_dirty : (s.hold).dirty = s.dirty := rfl
@[simp] theorem hold_mem : (s.hold).mem = s.mem := rfl
@[simp] theorem hold_gateOpen : (s.hold).gateOpen = s.gateOpen := rfl
@[simp] theorem hold_status : (s.hold).status = s.status := rfl
@[simp] theorem hold_faultCode : (s.hold).faultCode = s.faultCode := rfl
@[simp] theorem hold_faultPc : (s.hold).faultPc = s.faultPc := rfl
@[simp] theorem hold_faultOpcode : (s.hold).faultOpcode = s.faultOpcode := rfl
@[simp] theorem hold_faultAddr : (s.hold).faultAddr = s.faultAddr := rfl
@[simp] theorem hold_unkFlag : (s.hold).unkFlag = s.unkFlag := rfl
@[simp] theorem hold_unkOpcode : (s.hold).unkOpcode = s.unkOpcode := rfl
@[simp] theorem hold_unkPc : (s.hold).unkPc = s.unkPc := rfl
@[simp] theorem hold_romTruncated : (s.hold).romTruncated = s.romTruncated := rfl
@[simp] theorem hold_params : (s.hold).params = s.params := rfl
@[simp] theorem hold_inputs : (s.hold).inputs = s.inputs := rfl
@[simp] theorem hold_rngCount : (s.hold).rngCount = s.rngCount := rfl
@[simp] theorem hold_schedule : (s.hold).schedule = s.schedule := rfl
@[simp] theorem hold_beyond : (s.hold).beyond = s.beyond := rfl
@[simp] theorem hold_reg (y : Reg) : (s.hold).reg y = s.reg y := rfl
@[simp] theorem hold_readByte (c : Nat) : (s.hold).readByte c = s.readByte c := rfl
@[simp] theorem hold_pixel (px py : Nat) : (s.hold).pixel px py = s.pixel px py := rfl
@[simp] theorem hold_width : (s.hold).width = s.width := rfl
@[simp] theorem hold_height : (s.hold).height = s.height := rfl
@[simp] theorem hold_effAddr (c : Nat) : (s.hold).effAddr c = s.effAddr c := rfl

/-! ### setIndex -/

@[simp] theorem setIndex_v (n : Nat) : (s.setIndex n).v = s.v := rfl
@[simp] theorem setIndex_pc (n : Nat) : (s.setIndex n).pc = s.pc := rfl
@[simp] theorem setIndex_i (n : Nat) : (s.setIndex n).i = BitVec.ofNat 16 (n % 0x1000) := rfl
@[simp] theorem setIndex_stack (n : Nat) : (s.setIndex n).stack = s.stack := rfl
@[simp] theorem setIndex_sp (n : Nat) : (s.setIndex n).sp = s.sp := rfl
@[simp] theorem setIndex_dt (n : Nat) : (s.setIndex n).dt = s.dt := rfl
@[simp] theorem setIndex_st (n : Nat) : (s.setIndex n).st = s.st := rfl
@[simp] theorem setIndex_dialect (n : Nat) : (s.setIndex n).dialect = s.dialect := rfl
@[simp] theorem setIndex_hires (n : Nat) : (s.setIndex n).hires = s.hires := rfl
@[simp] theorem setIndex_fb (n : Nat) : (s.setIndex n).fb = s.fb := rfl
@[simp] theorem setIndex_dirty (n : Nat) : (s.setIndex n).dirty = s.dirty := rfl
@[simp] theorem setIndex_mem (n : Nat) : (s.setIndex n).mem = s.mem := rfl
@[simp] theorem setIndex_gateOpen (n : Nat) : (s.setIndex n).gateOpen = s.gateOpen := rfl
@[simp] theorem setIndex_status (n : Nat) : (s.setIndex n).status = s.status := rfl
@[simp] theorem setIndex_faultCode (n : Nat) : (s.setIndex n).faultCode = s.faultCode := rfl
@[simp] theorem setIndex_faultPc (n : Nat) : (s.setIndex n).faultPc = s.faultPc := rfl
@[simp] theorem setIndex_faultOpcode (n : Nat) : (s.setIndex n).faultOpcode = s.faultOpcode := rfl
@[simp] theorem setIndex_faultAddr (n : Nat) : (s.setIndex n).faultAddr = s.faultAddr := rfl
@[simp] theorem setIndex_unkFlag (n : Nat) : (s.setIndex n).unkFlag = s.unkFlag := rfl
@[simp] theorem setIndex_unkOpcode (n : Nat) : (s.setIndex n).unkOpcode = s.unkOpcode := rfl
@[simp] theorem setIndex_unkPc (n : Nat) : (s.setIndex n).unkPc = s.unkPc := rfl
@[simp] theorem setIndex_romTruncated (n : Nat) : (s.setIndex n).romTruncated = s.romTruncated := rfl
@[simp] theorem setIndex_params (n : Nat) : (s.setIndex n).params = s.params := rfl
@[simp] theorem setIndex_inputs (n : Nat) : (s.setIndex n).inputs = s.inputs := rfl
@[simp] theorem setIndex_rngCount (n : Nat) : (s.setIndex n).rngCount = s.rngCount := rfl
@[simp] theorem setIndex_schedule (n : Nat) : (s.setIndex n).schedule = s.schedule := rfl
@[simp] theorem setIndex_beyond (n : Nat) : (s.setIndex n).beyond = s.beyond := rfl
@[simp] theorem setIndex_reg (n : Nat) (y : Reg) : (s.setIndex n).reg y = s.reg y := rfl
@[simp] theorem setIndex_readByte (n : Nat) (c : Nat) : (s.setIndex n).readByte c = s.readByte c := rfl
@[simp] theorem setIndex_pixel (n : Nat) (px py : Nat) : (s.setIndex n).pixel px py = s.pixel px py := rfl
@[simp] theorem setIndex_width (n : Nat) : (s.setIndex n).width = s.width := rfl
@[simp] theorem setIndex_height (n : Nat) : (s.setIndex n).height = s.height := rfl

/-! ### setDelay -/

@[simp] theorem setDelay_v (b : Byte) : (s.setDelay b).v = s.v := rfl
@[simp] theorem setDelay_pc (b : Byte) : (s.setDelay b).pc = s.pc := rfl
@[simp] theorem setDelay_i (b : Byte) : (s.setDelay b).i = s.i := rfl
@[simp] theorem setDelay_stack (b : Byte) : (s.setDelay b).stack = s.stack := rfl
@[simp] theorem setDelay_sp (b : Byte) : (s.setDelay b).sp = s.sp := rfl
@[simp] theorem setDelay_dt (b : Byte) : (s.setDelay b).dt = b := rfl
@[simp] theorem setDelay_st (b : Byte) : (s.setDelay b).st = s.st := rfl
@[simp] theorem setDelay_dialect (b : Byte) : (s.setDelay b).dialect = s.dialect := rfl
@[simp] theorem setDelay_hires (b : Byte) : (s.setDelay b).hires = s.hires := rfl
@[simp] theorem setDelay_fb (b : Byte) : (s.setDelay b).fb = s.fb := rfl
@[simp] theorem setDelay_dirty (b : Byte) : (s.setDelay b).dirty = s.dirty := rfl
@[simp] theorem setDelay_mem (b : Byte) : (s.setDelay b).mem = s.mem := rfl
@[simp] theorem setDelay_gateOpen (b : Byte) : (s.setDelay b).gateOpen = s.gateOpen := rfl
@[simp] theorem setDelay_status (b : Byte) : (s.setDelay b).status = s.status := rfl
@[simp] theorem setDelay_faultCode (b : Byte) : (s.setDelay b).faultCode = s.faultCode := rfl
@[simp] theorem setDelay_faultPc (b : Byte) : (s.setDelay b).faultPc = s.faultPc := rfl
@[simp] theorem setDelay_faultOpcode (b : Byte) : (s.setDelay b).faultOpcode = s.faultOpcode := rfl
@[simp] theorem setDelay_faultAddr (b : Byte) : (s.setDelay b).faultAddr = s.faultAddr := rfl
@[simp] theorem setDelay_unkFlag (b : Byte) : (s.setDelay b).unkFlag = s.unkFlag := rfl
@[simp] theorem setDelay_unkOpcode (b : Byte) : (s.setDelay b).unkOpcode = s.unkOpcode := rfl
@[simp] theorem setDelay_unkPc (b : Byte) : (s.setDelay b).unkPc = s.unkPc := rfl
@[simp] theorem setDelay_romTruncated (b : Byte) : (s.setDelay b).romTruncated = s.romTruncated := rfl
@[simp] theorem setDelay_params (b : Byte) : (s.setDelay b).params = s.params := rfl
@[simp] theorem setDelay_inputs (b : Byte) : (s.setDelay b).inputs = s.inputs := rfl
@[simp] theorem setDelay_rngCount (b : Byte) : (s.setDelay b).rngCount = s.rngCount := rfl
@[simp] theorem setDelay_schedule (b : Byte) : (s.setDelay b).schedule = s.schedule := rfl
@[simp] theorem setDelay_beyond (b : Byte) : (s.setDelay b).beyond = s.beyond := rfl
@[simp] theorem setDelay_reg (b : Byte) (y : Reg) : (s.setDelay b).reg y = s.reg y := rfl
@[simp] theorem setDelay_readByte (b : Byte) (c : Nat) : (s.setDelay b).readByte c = s.readByte c := rfl
@[simp] theorem setDelay_pixel (b : Byte) (px py : Nat) : (s.setDelay b).pixel px py = s.pixel px py := rfl
@[simp] theorem setDelay_width (b : Byte) : (s.setDelay b).width = s.width := rfl
@[simp] theorem setDelay_height (b : Byte) : (s.setDelay b).height = s.height := rfl
@[simp] theorem setDelay_effAddr (b : Byte) (c : Nat) : (s.setDelay b).effAddr c = s.effAddr c := rfl

/-! ### setSound -/

@[simp] theorem setSound_v (b : Byte) : (s.setSound b).v = s.v := rfl
@[simp] theorem setSound_pc (b : Byte) : (s.setSound b).pc = s.pc := rfl
@[simp] theorem setSound_i (b : Byte) : (s.setSound b).i = s.i := rfl
@[simp] theorem setSound_stack (b : Byte) : (s.setSound b).stack = s.stack := rfl
@[simp] theorem setSound_sp (b : Byte) : (s.setSound b).sp = s.sp := rfl
@[simp] theorem setSound_dt (b : Byte) : (s.setSound b).dt = s.dt := rfl
@[simp] theorem setSound_st (b : Byte) : (s.setSound b).st = b := rfl
@[simp] theorem setSound_dialect (b : Byte) : (s.setSound b).dialect = s.dialect := rfl
@[simp] theorem setSound_hires (b : Byte) : (s.setSound b).hires = s.hires := rfl
@[simp] theorem setSound_fb (b : Byte) : (s.setSound b).fb = s.fb := rfl
@[simp] theorem setSound_dirty (b : Byte) : (s.setSound b).dirty = s.dirty := rfl
@[simp] theorem setSound_mem (b : Byte) : (s.setSound b).mem = s.mem := rfl
@[simp] theorem setSound_gateOpen (b : Byte) : (s.setSound b).gateOpen = s.gateOpen := rfl
@[simp] theorem setSound_status (b : Byte) : (s.setSound b).status = s.status := rfl
@[simp] theorem setSound_faultCode (b : Byte) : (s.setSound b).faultCode = s.faultCode := rfl
@[simp] theorem setSound_faultPc (b : Byte) : (s.setSound b).faultPc = s.faultPc := rfl
@[simp] theorem setSound_faultOpcode (b : Byte) : (s.setSound b).faultOpcode = s.faultOpcode := rfl
@[simp] theorem setSound_faultAddr (b : Byte) : (s.setSound b).faultAddr = s.faultAddr := rfl
@[simp] theorem setSound_unkFlag (b : Byte) : (s.setSound b).unkFlag = s.unkFlag := rfl
@[simp] theorem setSound_unkOpcode (b : Byte) : (s.setSound b).unkOpcode = s.unkOpcode := rfl
@[simp] theorem setSound_unkPc (b : Byte) : (s.setSound b).unkPc = s.unkPc := rfl
@[simp] theorem setSound_romTruncated (b : Byte) : (s.setSound b).romTruncated = s.romTruncated := rfl
@[simp] theorem setSound_params (b : Byte) : (s.setSound b).params = s.params := rfl
@[simp] theorem setSound_inputs (b : Byte) : (s.setSound b).inputs = s.inputs := rfl
@[simp] theorem setSound_rngCount (b : Byte) : (s.setSound b).rngCount = s.rngCount := rfl
@[simp] theorem setSound_schedule (b : Byte) : (s.setSound b).schedule = s.schedule := rfl
@[simp] theorem setSound_beyond (b : Byte) : (s.setSound b).beyond = s.beyond := rfl
@[simp] theorem setSound_reg (b : Byte) (y : Reg) : (s.setSound b).reg y = s.reg y := rfl
@[simp] theorem setSound_readByte (b : Byte) (c : Nat) : (s.setSound b).readByte c = s.readByte c := rfl
@[simp] theorem setSound_pixel (b : Byte) (px py : Nat) : (s.setSound b).pixel px py = s.pixel px py := rfl
@[simp] theorem setSound_width (b : Byte) : (s.setSound b).width = s.width := rfl
@[simp] theorem setSound_height (b : Byte) : (s.setSound b).height = s.height := rfl
@[simp] theorem setSound_effAddr (b : Byte) (c : Nat) : (s.setSound b).effAddr c = s.effAddr c := rfl

/-! ### setStatus -/

@[simp] theorem setStatus_v (q : Status) : (s.setStatus q).v = s.v := rfl
@[simp] theorem setStatus_pc (q : Status) : (s.setStatus q).pc = s.pc := rfl
@[simp] theorem setStatus_i (q : Status) : (s.setStatus q).i = s.i := rfl
@[simp] theorem setStatus_stack (q : Status) : (s.setStatus q).stack = s.stack := rfl
@[simp] theorem setStatus_sp (q : Status) : (s.setStatus q).sp = s.sp := rfl
@[simp] theorem setStatus_dt (q : Status) : (s.setStatus q).dt = s.dt := rfl
@[simp] theorem setStatus_st (q : Status) : (s.setStatus q).st = s.st := rfl
@[simp] theorem setStatus_dialect (q : Status) : (s.setStatus q).dialect = s.dialect := rfl
@[simp] theorem setStatus_hires (q : Status) : (s.setStatus q).hires = s.hires := rfl
@[simp] theorem setStatus_fb (q : Status) : (s.setStatus q).fb = s.fb := rfl
@[simp] theorem setStatus_dirty (q : Status) : (s.setStatus q).dirty = s.dirty := rfl
@[simp] theorem setStatus_mem (q : Status) : (s.setStatus q).mem = s.mem := rfl
@[simp] theorem setStatus_gateOpen (q : Status) : (s.setStatus q).gateOpen = s.gateOpen := rfl
@[simp] theorem setStatus_status (q : Status) : (s.setStatus q).status = q := rfl
@[simp] theorem setStatus_faultCode (q : Status) : (s.setStatus q).faultCode = s.faultCode := rfl
@[simp] theorem setStatus_faultPc (q : Status) : (s.setStatus q).faultPc = s.faultPc := rfl
@[simp] theorem setStatus_faultOpcode (q : Status) : (s.setStatus q).faultOpcode = s.faultOpcode := rfl
@[simp] theorem setStatus_faultAddr (q : Status) : (s.setStatus q).faultAddr = s.faultAddr := rfl
@[simp] theorem setStatus_unkFlag (q : Status) : (s.setStatus q).unkFlag = s.unkFlag := rfl
@[simp] theorem setStatus_unkOpcode (q : Status) : (s.setStatus q).unkOpcode = s.unkOpcode := rfl
@[simp] theorem setStatus_unkPc (q : Status) : (s.setStatus q).unkPc = s.unkPc := rfl
@[simp] theorem setStatus_romTruncated (q : Status) : (s.setStatus q).romTruncated = s.romTruncated := rfl
@[simp] theorem setStatus_params (q : Status) : (s.setStatus q).params = s.params := rfl
@[simp] theorem setStatus_inputs (q : Status) : (s.setStatus q).inputs = s.inputs := rfl
@[simp] theorem setStatus_rngCount (q : Status) : (s.setStatus q).rngCount = s.rngCount := rfl
@[simp] theorem setStatus_schedule (q : Status) : (s.setStatus q).schedule = s.schedule := rfl
@[simp] theorem setStatus_beyond (q : Status) : (s.setStatus q).beyond = s.beyond := rfl
@[simp] theorem setStatus_reg (q : Status) (y : Reg) : (s.setStatus q).reg y = s.reg y := rfl
@[simp] theorem setStatus_readByte (q : Status) (c : Nat) : (s.setStatus q).readByte c = s.readByte c := rfl
@[simp] theorem setStatus_pixel (q : Status) (px py : Nat) : (s.setStatus q).pixel px py = s.pixel px py := rfl
@[simp] theorem setStatus_width (q : Status) : (s.setStatus q).width = s.width := rfl
@[simp] theorem setStatus_height (q : Status) : (s.setStatus q).height = s.height := rfl
@[simp] theorem setStatus_effAddr (q : Status) (c : Nat) : (s.setStatus q).effAddr c = s.effAddr c := rfl

/-! ### writeByte -/

@[simp] theorem writeByte_v (a : Nat) (b : Byte) : (s.writeByte a b).v = s.v := rfl
@[simp] theorem writeByte_pc (a : Nat) (b : Byte) : (s.writeByte a b).pc = s.pc := rfl
@[simp] theorem writeByte_i (a : Nat) (b : Byte) : (s.writeByte a b).i = s.i := rfl
@[simp] theorem writeByte_stack (a : Nat) (b : Byte) : (s.writeByte a b).stack = s.stack := rfl
@[simp] theorem writeByte_sp (a : Nat) (b : Byte) : (s.writeByte a b).sp = s.sp := rfl
@[simp] theorem writeByte_dt (a : Nat) (b : Byte) : (s.writeByte a b).dt = s.dt := rfl
@[simp] theorem writeByte_st (a : Nat) (b : Byte) : (s.writeByte a b).st = s.st := rfl
@[simp] theorem writeByte_dialect (a : Nat) (b : Byte) : (s.writeByte a b).dialect = s.dialect := rfl
@[simp] theorem writeByte_hires (a : Nat) (b : Byte) : (s.writeByte a b).hires = s.hires := rfl
@[simp] theorem writeByte_fb (a : Nat) (b : Byte) : (s.writeByte a b).fb = s.fb := rfl
@[simp] theorem writeByte_dirty (a : Nat) (b : Byte) : (s.writeByte a b).dirty = s.dirty := rfl
@[simp] theorem writeByte_mem (a : Nat) (b : Byte) : (s.writeByte a b).mem = Memory.write (background s.params) s.mem a b := rfl
@[simp] theorem writeByte_gateOpen (a : Nat) (b : Byte) : (s.writeByte a b).gateOpen = s.gateOpen := rfl
@[simp] theorem writeByte_status (a : Nat) (b : Byte) : (s.writeByte a b).status = s.status := rfl
@[simp] theorem writeByte_faultCode (a : Nat) (b : Byte) : (s.writeByte a b).faultCode = s.faultCode := rfl
@[simp] theorem writeByte_faultPc (a : Nat) (b : Byte) : (s.writeByte a b).faultPc = s.faultPc := rfl
@[simp] theorem writeByte_faultOpcode (a : Nat) (b : Byte) : (s.writeByte a b).faultOpcode = s.faultOpcode := rfl
@[simp] theorem writeByte_faultAddr (a : Nat) (b : Byte) : (s.writeByte a b).faultAddr = s.faultAddr := rfl
@[simp] theorem writeByte_unkFlag (a : Nat) (b : Byte) : (s.writeByte a b).unkFlag = s.unkFlag := rfl
@[simp] theorem writeByte_unkOpcode (a : Nat) (b : Byte) : (s.writeByte a b).unkOpcode = s.unkOpcode := rfl
@[simp] theorem writeByte_unkPc (a : Nat) (b : Byte) : (s.writeByte a b).unkPc = s.unkPc := rfl
@[simp] theorem writeByte_romTruncated (a : Nat) (b : Byte) : (s.writeByte a b).romTruncated = s.romTruncated := rfl
@[simp] theorem writeByte_params (a : Nat) (b : Byte) : (s.writeByte a b).params = s.params := rfl
@[simp] theorem writeByte_inputs (a : Nat) (b : Byte) : (s.writeByte a b).inputs = s.inputs := rfl
@[simp] theorem writeByte_rngCount (a : Nat) (b : Byte) : (s.writeByte a b).rngCount = s.rngCount := rfl
@[simp] theorem writeByte_schedule (a : Nat) (b : Byte) : (s.writeByte a b).schedule = s.schedule := rfl
@[simp] theorem writeByte_beyond (a : Nat) (b : Byte) : (s.writeByte a b).beyond = s.beyond := rfl
@[simp] theorem writeByte_reg (a : Nat) (b : Byte) (y : Reg) : (s.writeByte a b).reg y = s.reg y := rfl
@[simp] theorem writeByte_pixel (a : Nat) (b : Byte) (px py : Nat) : (s.writeByte a b).pixel px py = s.pixel px py := rfl
@[simp] theorem writeByte_width (a : Nat) (b : Byte) : (s.writeByte a b).width = s.width := rfl
@[simp] theorem writeByte_height (a : Nat) (b : Byte) : (s.writeByte a b).height = s.height := rfl
@[simp] theorem writeByte_effAddr (a : Nat) (b : Byte) (c : Nat) : (s.writeByte a b).effAddr c = s.effAddr c := rfl

/-! ### setScreen -/

@[simp] theorem setScreen_v (fb : Vector (BitVec 128) 64) : (s.setScreen fb).v = s.v := rfl
@[simp] theorem setScreen_pc (fb : Vector (BitVec 128) 64) : (s.setScreen fb).pc = s.pc := rfl
@[simp] theorem setScreen_i (fb : Vector (BitVec 128) 64) : (s.setScreen fb).i = s.i := rfl
@[simp] theorem setScreen_stack (fb : Vector (BitVec 128) 64) : (s.setScreen fb).stack = s.stack := rfl
@[simp] theorem setScreen_sp (fb : Vector (BitVec 128) 64) : (s.setScreen fb).sp = s.sp := rfl
@[simp] theorem setScreen_dt (fb : Vector (BitVec 128) 64) : (s.setScreen fb).dt = s.dt := rfl
@[simp] theorem setScreen_st (fb : Vector (BitVec 128) 64) : (s.setScreen fb).st = s.st := rfl
@[simp] theorem setScreen_dialect (fb : Vector (BitVec 128) 64) : (s.setScreen fb).dialect = s.dialect := rfl
@[simp] theorem setScreen_hires (fb : Vector (BitVec 128) 64) : (s.setScreen fb).hires = s.hires := rfl
@[simp] theorem setScreen_fb (fb : Vector (BitVec 128) 64) : (s.setScreen fb).fb = fb := rfl
@[simp] theorem setScreen_dirty (fb : Vector (BitVec 128) 64) : (s.setScreen fb).dirty = s.dirty := rfl
@[simp] theorem setScreen_mem (fb : Vector (BitVec 128) 64) : (s.setScreen fb).mem = s.mem := rfl
@[simp] theorem setScreen_gateOpen (fb : Vector (BitVec 128) 64) : (s.setScreen fb).gateOpen = s.gateOpen := rfl
@[simp] theorem setScreen_status (fb : Vector (BitVec 128) 64) : (s.setScreen fb).status = s.status := rfl
@[simp] theorem setScreen_faultCode (fb : Vector (BitVec 128) 64) : (s.setScreen fb).faultCode = s.faultCode := rfl
@[simp] theorem setScreen_faultPc (fb : Vector (BitVec 128) 64) : (s.setScreen fb).faultPc = s.faultPc := rfl
@[simp] theorem setScreen_faultOpcode (fb : Vector (BitVec 128) 64) : (s.setScreen fb).faultOpcode = s.faultOpcode := rfl
@[simp] theorem setScreen_faultAddr (fb : Vector (BitVec 128) 64) : (s.setScreen fb).faultAddr = s.faultAddr := rfl
@[simp] theorem setScreen_unkFlag (fb : Vector (BitVec 128) 64) : (s.setScreen fb).unkFlag = s.unkFlag := rfl
@[simp] theorem setScreen_unkOpcode (fb : Vector (BitVec 128) 64) : (s.setScreen fb).unkOpcode = s.unkOpcode := rfl
@[simp] theorem setScreen_unkPc (fb : Vector (BitVec 128) 64) : (s.setScreen fb).unkPc = s.unkPc := rfl
@[simp] theorem setScreen_romTruncated (fb : Vector (BitVec 128) 64) : (s.setScreen fb).romTruncated = s.romTruncated := rfl
@[simp] theorem setScreen_params (fb : Vector (BitVec 128) 64) : (s.setScreen fb).params = s.params := rfl
@[simp] theorem setScreen_inputs (fb : Vector (BitVec 128) 64) : (s.setScreen fb).inputs = s.inputs := rfl
@[simp] theorem setScreen_rngCount (fb : Vector (BitVec 128) 64) : (s.setScreen fb).rngCount = s.rngCount := rfl
@[simp] theorem setScreen_schedule (fb : Vector (BitVec 128) 64) : (s.setScreen fb).schedule = s.schedule := rfl
@[simp] theorem setScreen_beyond (fb : Vector (BitVec 128) 64) : (s.setScreen fb).beyond = s.beyond := rfl
@[simp] theorem setScreen_reg (fb : Vector (BitVec 128) 64) (y : Reg) : (s.setScreen fb).reg y = s.reg y := rfl
@[simp] theorem setScreen_readByte (fb : Vector (BitVec 128) 64) (c : Nat) : (s.setScreen fb).readByte c = s.readByte c := rfl
@[simp] theorem setScreen_width (fb : Vector (BitVec 128) 64) : (s.setScreen fb).width = s.width := rfl
@[simp] theorem setScreen_height (fb : Vector (BitVec 128) 64) : (s.setScreen fb).height = s.height := rfl
@[simp] theorem setScreen_effAddr (fb : Vector (BitVec 128) 64) (c : Nat) : (s.setScreen fb).effAddr c = s.effAddr c := rfl

/-! ### setDirty -/

@[simp] theorem setDirty_v (d : Bool) : (s.setDirty d).v = s.v := rfl
@[simp] theorem setDirty_pc (d : Bool) : (s.setDirty d).pc = s.pc := rfl
@[simp] theorem setDirty_i (d : Bool) : (s.setDirty d).i = s.i := rfl
@[simp] theorem setDirty_stack (d : Bool) : (s.setDirty d).stack = s.stack := rfl
@[simp] theorem setDirty_sp (d : Bool) : (s.setDirty d).sp = s.sp := rfl
@[simp] theorem setDirty_dt (d : Bool) : (s.setDirty d).dt = s.dt := rfl
@[simp] theorem setDirty_st (d : Bool) : (s.setDirty d).st = s.st := rfl
@[simp] theorem setDirty_dialect (d : Bool) : (s.setDirty d).dialect = s.dialect := rfl
@[simp] theorem setDirty_hires (d : Bool) : (s.setDirty d).hires = s.hires := rfl
@[simp] theorem setDirty_fb (d : Bool) : (s.setDirty d).fb = s.fb := rfl
@[simp] theorem setDirty_dirty (d : Bool) : (s.setDirty d).dirty = d := rfl
@[simp] theorem setDirty_mem (d : Bool) : (s.setDirty d).mem = s.mem := rfl
@[simp] theorem setDirty_gateOpen (d : Bool) : (s.setDirty d).gateOpen = s.gateOpen := rfl
@[simp] theorem setDirty_status (d : Bool) : (s.setDirty d).status = s.status := rfl
@[simp] theorem setDirty_faultCode (d : Bool) : (s.setDirty d).faultCode = s.faultCode := rfl
@[simp] theorem setDirty_faultPc (d : Bool) : (s.setDirty d).faultPc = s.faultPc := rfl
@[simp] theorem setDirty_faultOpcode (d : Bool) : (s.setDirty d).faultOpcode = s.faultOpcode := rfl
@[simp] theorem setDirty_faultAddr (d : Bool) : (s.setDirty d).faultAddr = s.faultAddr := rfl
@[simp] theorem setDirty_unkFlag (d : Bool) : (s.setDirty d).unkFlag = s.unkFlag := rfl
@[simp] theorem setDirty_unkOpcode (d : Bool) : (s.setDirty d).unkOpcode = s.unkOpcode := rfl
@[simp] theorem setDirty_unkPc (d : Bool) : (s.setDirty d).unkPc = s.unkPc := rfl
@[simp] theorem setDirty_romTruncated (d : Bool) : (s.setDirty d).romTruncated = s.romTruncated := rfl
@[simp] theorem setDirty_params (d : Bool) : (s.setDirty d).params = s.params := rfl
@[simp] theorem setDirty_inputs (d : Bool) : (s.setDirty d).inputs = s.inputs := rfl
@[simp] theorem setDirty_rngCount (d : Bool) : (s.setDirty d).rngCount = s.rngCount := rfl
@[simp] theorem setDirty_schedule (d : Bool) : (s.setDirty d).schedule = s.schedule := rfl
@[simp] theorem setDirty_beyond (d : Bool) : (s.setDirty d).beyond = s.beyond := rfl
@[simp] theorem setDirty_reg (d : Bool) (y : Reg) : (s.setDirty d).reg y = s.reg y := rfl
@[simp] theorem setDirty_readByte (d : Bool) (c : Nat) : (s.setDirty d).readByte c = s.readByte c := rfl
@[simp] theorem setDirty_pixel (d : Bool) (px py : Nat) : (s.setDirty d).pixel px py = s.pixel px py := rfl
@[simp] theorem setDirty_width (d : Bool) : (s.setDirty d).width = s.width := rfl
@[simp] theorem setDirty_height (d : Bool) : (s.setDirty d).height = s.height := rfl
@[simp] theorem setDirty_effAddr (d : Bool) (c : Nat) : (s.setDirty d).effAddr c = s.effAddr c := rfl

/-! ### setGate -/

@[simp] theorem setGate_v (g : Bool) : (s.setGate g).v = s.v := rfl
@[simp] theorem setGate_pc (g : Bool) : (s.setGate g).pc = s.pc := rfl
@[simp] theorem setGate_i (g : Bool) : (s.setGate g).i = s.i := rfl
@[simp] theorem setGate_stack (g : Bool) : (s.setGate g).stack = s.stack := rfl
@[simp] theorem setGate_sp (g : Bool) : (s.setGate g).sp = s.sp := rfl
@[simp] theorem setGate_dt (g : Bool) : (s.setGate g).dt = s.dt := rfl
@[simp] theorem setGate_st (g : Bool) : (s.setGate g).st = s.st := rfl
@[simp] theorem setGate_dialect (g : Bool) : (s.setGate g).dialect = s.dialect := rfl
@[simp] theorem setGate_hires (g : Bool) : (s.setGate g).hires = s.hires := rfl
@[simp] theorem setGate_fb (g : Bool) : (s.setGate g).fb = s.fb := rfl
@[simp] theorem setGate_dirty (g : Bool) : (s.setGate g).dirty = s.dirty := rfl
@[simp] theorem setGate_mem (g : Bool) : (s.setGate g).mem = s.mem := rfl
@[simp] theorem setGate_gateOpen (g : Bool) : (s.setGate g).gateOpen = g := rfl
@[simp] theorem setGate_status (g : Bool) : (s.setGate g).status = s.status := rfl
@[simp] theorem setGate_faultCode (g : Bool) : (s.setGate g).faultCode = s.faultCode := rfl
@[simp] theorem setGate_faultPc (g : Bool) : (s.setGate g).faultPc = s.faultPc := rfl
@[simp] theorem setGate_faultOpcode (g : Bool) : (s.setGate g).faultOpcode = s.faultOpcode := rfl
@[simp] theorem setGate_faultAddr (g : Bool) : (s.setGate g).faultAddr = s.faultAddr := rfl
@[simp] theorem setGate_unkFlag (g : Bool) : (s.setGate g).unkFlag = s.unkFlag := rfl
@[simp] theorem setGate_unkOpcode (g : Bool) : (s.setGate g).unkOpcode = s.unkOpcode := rfl
@[simp] theorem setGate_unkPc (g : Bool) : (s.setGate g).unkPc = s.unkPc := rfl
@[simp] theorem setGate_romTruncated (g : Bool) : (s.setGate g).romTruncated = s.romTruncated := rfl
@[simp] theorem setGate_params (g : Bool) : (s.setGate g).params = s.params := rfl
@[simp] theorem setGate_inputs (g : Bool) : (s.setGate g).inputs = s.inputs := rfl
@[simp] theorem setGate_rngCount (g : Bool) : (s.setGate g).rngCount = s.rngCount := rfl
@[simp] theorem setGate_schedule (g : Bool) : (s.setGate g).schedule = s.schedule := rfl
@[simp] theorem setGate_beyond (g : Bool) : (s.setGate g).beyond = s.beyond := rfl
@[simp] theorem setGate_reg (g : Bool) (y : Reg) : (s.setGate g).reg y = s.reg y := rfl
@[simp] theorem setGate_readByte (g : Bool) (c : Nat) : (s.setGate g).readByte c = s.readByte c := rfl
@[simp] theorem setGate_pixel (g : Bool) (px py : Nat) : (s.setGate g).pixel px py = s.pixel px py := rfl
@[simp] theorem setGate_width (g : Bool) : (s.setGate g).width = s.width := rfl
@[simp] theorem setGate_height (g : Bool) : (s.setGate g).height = s.height := rfl
@[simp] theorem setGate_effAddr (g : Bool) (c : Nat) : (s.setGate g).effAddr c = s.effAddr c := rfl

/-! ### selectResolution -/

@[simp] theorem selectResolution_v (h : Bool) : (s.selectResolution h).v = s.v := rfl
@[simp] theorem selectResolution_pc (h : Bool) : (s.selectResolution h).pc = s.pc := rfl
@[simp] theorem selectResolution_i (h : Bool) : (s.selectResolution h).i = s.i := rfl
@[simp] theorem selectResolution_stack (h : Bool) : (s.selectResolution h).stack = s.stack := rfl
@[simp] theorem selectResolution_sp (h : Bool) : (s.selectResolution h).sp = s.sp := rfl
@[simp] theorem selectResolution_dt (h : Bool) : (s.selectResolution h).dt = s.dt := rfl
@[simp] theorem selectResolution_st (h : Bool) : (s.selectResolution h).st = s.st := rfl
@[simp] theorem selectResolution_dialect (h : Bool) : (s.selectResolution h).dialect = .schip := rfl
@[simp] theorem selectResolution_hires (h : Bool) : (s.selectResolution h).hires = h := rfl
@[simp] theorem selectResolution_fb (h : Bool) : (s.selectResolution h).fb = s.fb := rfl
@[simp] theorem selectResolution_dirty (h : Bool) : (s.selectResolution h).dirty = s.dirty := rfl
@[simp] theorem selectResolution_mem (h : Bool) : (s.selectResolution h).mem = s.mem := rfl
@[simp] theorem selectResolution_gateOpen (h : Bool) : (s.selectResolution h).gateOpen = s.gateOpen := rfl
@[simp] theorem selectResolution_status (h : Bool) : (s.selectResolution h).status = s.status := rfl
@[simp] theorem selectResolution_faultCode (h : Bool) : (s.selectResolution h).faultCode = s.faultCode := rfl
@[simp] theorem selectResolution_faultPc (h : Bool) : (s.selectResolution h).faultPc = s.faultPc := rfl
@[simp] theorem selectResolution_faultOpcode (h : Bool) : (s.selectResolution h).faultOpcode = s.faultOpcode := rfl
@[simp] theorem selectResolution_faultAddr (h : Bool) : (s.selectResolution h).faultAddr = s.faultAddr := rfl
@[simp] theorem selectResolution_unkFlag (h : Bool) : (s.selectResolution h).unkFlag = s.unkFlag := rfl
@[simp] theorem selectResolution_unkOpcode (h : Bool) : (s.selectResolution h).unkOpcode = s.unkOpcode := rfl
@[simp] theorem selectResolution_unkPc (h : Bool) : (s.selectResolution h).unkPc = s.unkPc := rfl
@[simp] theorem selectResolution_romTruncated (h : Bool) : (s.selectResolution h).romTruncated = s.romTruncated := rfl
@[simp] theorem selectResolution_params (h : Bool) : (s.selectResolution h).params = s.params := rfl
@[simp] theorem selectResolution_inputs (h : Bool) : (s.selectResolution h).inputs = s.inputs := rfl
@[simp] theorem selectResolution_rngCount (h : Bool) : (s.selectResolution h).rngCount = s.rngCount := rfl
@[simp] theorem selectResolution_schedule (h : Bool) : (s.selectResolution h).schedule = s.schedule := rfl
@[simp] theorem selectResolution_beyond (h : Bool) : (s.selectResolution h).beyond = s.beyond := rfl
@[simp] theorem selectResolution_reg (h : Bool) (y : Reg) : (s.selectResolution h).reg y = s.reg y := rfl
@[simp] theorem selectResolution_readByte (h : Bool) (c : Nat) : (s.selectResolution h).readByte c = s.readByte c := rfl
@[simp] theorem selectResolution_pixel (h : Bool) (px py : Nat) : (s.selectResolution h).pixel px py = s.pixel px py := rfl
@[simp] theorem selectResolution_effAddr (h : Bool) (c : Nat) : (s.selectResolution h).effAddr c = s.effAddr c := rfl

/-! ### raise -/

@[simp] theorem raise_v (k : FaultKind) (a w : Word) : (s.raise k a w).v = s.v := rfl
@[simp] theorem raise_pc (k : FaultKind) (a w : Word) : (s.raise k a w).pc = s.pc := rfl
@[simp] theorem raise_i (k : FaultKind) (a w : Word) : (s.raise k a w).i = s.i := rfl
@[simp] theorem raise_stack (k : FaultKind) (a w : Word) : (s.raise k a w).stack = s.stack := rfl
@[simp] theorem raise_sp (k : FaultKind) (a w : Word) : (s.raise k a w).sp = s.sp := rfl
@[simp] theorem raise_dt (k : FaultKind) (a w : Word) : (s.raise k a w).dt = s.dt := rfl
@[simp] theorem raise_st (k : FaultKind) (a w : Word) : (s.raise k a w).st = s.st := rfl
@[simp] theorem raise_dialect (k : FaultKind) (a w : Word) : (s.raise k a w).dialect = s.dialect := rfl
@[simp] theorem raise_hires (k : FaultKind) (a w : Word) : (s.raise k a w).hires = s.hires := rfl
@[simp] theorem raise_fb (k : FaultKind) (a w : Word) : (s.raise k a w).fb = s.fb := rfl
@[simp] theorem raise_dirty (k : FaultKind) (a w : Word) : (s.raise k a w).dirty = s.dirty := rfl
@[simp] theorem raise_mem (k : FaultKind) (a w : Word) : (s.raise k a w).mem = s.mem := rfl
@[simp] theorem raise_gateOpen (k : FaultKind) (a w : Word) : (s.raise k a w).gateOpen = s.gateOpen := rfl
@[simp] theorem raise_status (k : FaultKind) (a w : Word) : (s.raise k a w).status = .faulted := rfl
@[simp] theorem raise_faultCode (k : FaultKind) (a w : Word) : (s.raise k a w).faultCode = k.code := rfl
@[simp] theorem raise_faultPc (k : FaultKind) (a w : Word) : (s.raise k a w).faultPc = a := rfl
@[simp] theorem raise_faultOpcode (k : FaultKind) (a w : Word) : (s.raise k a w).faultOpcode = w := rfl
@[simp] theorem raise_faultAddr (k : FaultKind) (a w : Word) : (s.raise k a w).faultAddr = k.addr := rfl
@[simp] theorem raise_unkFlag (k : FaultKind) (a w : Word) : (s.raise k a w).unkFlag = s.unkFlag := rfl
@[simp] theorem raise_unkOpcode (k : FaultKind) (a w : Word) : (s.raise k a w).unkOpcode = s.unkOpcode := rfl
@[simp] theorem raise_unkPc (k : FaultKind) (a w : Word) : (s.raise k a w).unkPc = s.unkPc := rfl
@[simp] theorem raise_romTruncated (k : FaultKind) (a w : Word) : (s.raise k a w).romTruncated = s.romTruncated := rfl
@[simp] theorem raise_params (k : FaultKind) (a w : Word) : (s.raise k a w).params = s.params := rfl
@[simp] theorem raise_inputs (k : FaultKind) (a w : Word) : (s.raise k a w).inputs = s.inputs := rfl
@[simp] theorem raise_rngCount (k : FaultKind) (a w : Word) : (s.raise k a w).rngCount = s.rngCount := rfl
@[simp] theorem raise_schedule (k : FaultKind) (a w : Word) : (s.raise k a w).schedule = s.schedule := rfl
@[simp] theorem raise_beyond (k : FaultKind) (a w : Word) : (s.raise k a w).beyond = s.beyond := rfl
@[simp] theorem raise_reg (k : FaultKind) (a w : Word) (y : Reg) : (s.raise k a w).reg y = s.reg y := rfl
@[simp] theorem raise_readByte (k : FaultKind) (a w : Word) (c : Nat) : (s.raise k a w).readByte c = s.readByte c := rfl
@[simp] theorem raise_pixel (k : FaultKind) (a w : Word) (px py : Nat) : (s.raise k a w).pixel px py = s.pixel px py := rfl
@[simp] theorem raise_width (k : FaultKind) (a w : Word) : (s.raise k a w).width = s.width := rfl
@[simp] theorem raise_height (k : FaultKind) (a w : Word) : (s.raise k a w).height = s.height := rfl
@[simp] theorem raise_effAddr (k : FaultKind) (a w : Word) (c : Nat) : (s.raise k a w).effAddr c = s.effAddr c := rfl

/-! ### reportUnknown -/

@[simp] theorem reportUnknown_v (w : Word) : (s.reportUnknown w).v = s.v := rfl
@[simp] theorem reportUnknown_pc (w : Word) : (s.reportUnknown w).pc = s.pc := rfl
@[simp] theorem reportUnknown_i (w : Word) : (s.reportUnknown w).i = s.i := rfl
@[simp] theorem reportUnknown_stack (w : Word) : (s.reportUnknown w).stack = s.stack := rfl
@[simp] theorem reportUnknown_sp (w : Word) : (s.reportUnknown w).sp = s.sp := rfl
@[simp] theorem reportUnknown_dt (w : Word) : (s.reportUnknown w).dt = s.dt := rfl
@[simp] theorem reportUnknown_st (w : Word) : (s.reportUnknown w).st = s.st := rfl
@[simp] theorem reportUnknown_dialect (w : Word) : (s.reportUnknown w).dialect = s.dialect := rfl
@[simp] theorem reportUnknown_hires (w : Word) : (s.reportUnknown w).hires = s.hires := rfl
@[simp] theorem reportUnknown_fb (w : Word) : (s.reportUnknown w).fb = s.fb := rfl
@[simp] theorem reportUnknown_dirty (w : Word) : (s.reportUnknown w).dirty = s.dirty := rfl
@[simp] theorem reportUnknown_mem (w : Word) : (s.reportUnknown w).mem = s.mem := rfl
@[simp] theorem reportUnknown_gateOpen (w : Word) : (s.reportUnknown w).gateOpen = s.gateOpen := rfl
@[simp] theorem reportUnknown_status (w : Word) : (s.reportUnknown w).status = s.status := rfl
@[simp] theorem reportUnknown_faultCode (w : Word) : (s.reportUnknown w).faultCode = s.faultCode := rfl
@[simp] theorem reportUnknown_faultPc (w : Word) : (s.reportUnknown w).faultPc = s.faultPc := rfl
@[simp] theorem reportUnknown_faultOpcode (w : Word) : (s.reportUnknown w).faultOpcode = s.faultOpcode := rfl
@[simp] theorem reportUnknown_faultAddr (w : Word) : (s.reportUnknown w).faultAddr = s.faultAddr := rfl
@[simp] theorem reportUnknown_unkFlag (w : Word) : (s.reportUnknown w).unkFlag = true := rfl
@[simp] theorem reportUnknown_unkOpcode (w : Word) : (s.reportUnknown w).unkOpcode = w := rfl
@[simp] theorem reportUnknown_unkPc (w : Word) : (s.reportUnknown w).unkPc = s.pc - 2 := rfl
@[simp] theorem reportUnknown_romTruncated (w : Word) : (s.reportUnknown w).romTruncated = s.romTruncated := rfl
@[simp] theorem reportUnknown_params (w : Word) : (s.reportUnknown w).params = s.params := rfl
@[simp] theorem reportUnknown_inputs (w : Word) : (s.reportUnknown w).inputs = s.inputs := rfl
@[simp] theorem reportUnknown_rngCount (w : Word) : (s.reportUnknown w).rngCount = s.rngCount := rfl
@[simp] theorem reportUnknown_schedule (w : Word) : (s.reportUnknown w).schedule = s.schedule := rfl
@[simp] theorem reportUnknown_beyond (w : Word) : (s.reportUnknown w).beyond = s.beyond := rfl
@[simp] theorem reportUnknown_reg (w : Word) (y : Reg) : (s.reportUnknown w).reg y = s.reg y := rfl
@[simp] theorem reportUnknown_readByte (w : Word) (c : Nat) : (s.reportUnknown w).readByte c = s.readByte c := rfl
@[simp] theorem reportUnknown_pixel (w : Word) (px py : Nat) : (s.reportUnknown w).pixel px py = s.pixel px py := rfl
@[simp] theorem reportUnknown_width (w : Word) : (s.reportUnknown w).width = s.width := rfl
@[simp] theorem reportUnknown_height (w : Word) : (s.reportUnknown w).height = s.height := rfl
@[simp] theorem reportUnknown_effAddr (w : Word) (c : Nat) : (s.reportUnknown w).effAddr c = s.effAddr c := rfl

/-! ### countSample -/

@[simp] theorem countSample_v : (s.countSample).v = s.v := rfl
@[simp] theorem countSample_pc : (s.countSample).pc = s.pc := rfl
@[simp] theorem countSample_i : (s.countSample).i = s.i := rfl
@[simp] theorem countSample_stack : (s.countSample).stack = s.stack := rfl
@[simp] theorem countSample_sp : (s.countSample).sp = s.sp := rfl
@[simp] theorem countSample_dt : (s.countSample).dt = s.dt := rfl
@[simp] theorem countSample_st : (s.countSample).st = s.st := rfl
@[simp] theorem countSample_dialect : (s.countSample).dialect = s.dialect := rfl
@[simp] theorem countSample_hires : (s.countSample).hires = s.hires := rfl
@[simp] theorem countSample_fb : (s.countSample).fb = s.fb := rfl
@[simp] theorem countSample_dirty : (s.countSample).dirty = s.dirty := rfl
@[simp] theorem countSample_mem : (s.countSample).mem = s.mem := rfl
@[simp] theorem countSample_gateOpen : (s.countSample).gateOpen = s.gateOpen := rfl
@[simp] theorem countSample_status : (s.countSample).status = s.status := rfl
@[simp] theorem countSample_faultCode : (s.countSample).faultCode = s.faultCode := rfl
@[simp] theorem countSample_faultPc : (s.countSample).faultPc = s.faultPc := rfl
@[simp] theorem countSample_faultOpcode : (s.countSample).faultOpcode = s.faultOpcode := rfl
@[simp] theorem countSample_faultAddr : (s.countSample).faultAddr = s.faultAddr := rfl
@[simp] theorem countSample_unkFlag : (s.countSample).unkFlag = s.unkFlag := rfl
@[simp] theorem countSample_unkOpcode : (s.countSample).unkOpcode = s.unkOpcode := rfl
@[simp] theorem countSample_unkPc : (s.countSample).unkPc = s.unkPc := rfl
@[simp] theorem countSample_romTruncated : (s.countSample).romTruncated = s.romTruncated := rfl
@[simp] theorem countSample_params : (s.countSample).params = s.params := rfl
@[simp] theorem countSample_inputs : (s.countSample).inputs = s.inputs := rfl
@[simp] theorem countSample_rngCount : (s.countSample).rngCount = s.rngCount + 1 := rfl
@[simp] theorem countSample_schedule : (s.countSample).schedule = s.schedule := rfl
@[simp] theorem countSample_beyond : (s.countSample).beyond = s.beyond := rfl
@[simp] theorem countSample_reg (y : Reg) : (s.countSample).reg y = s.reg y := rfl
@[simp] theorem countSample_readByte (c : Nat) : (s.countSample).readByte c = s.readByte c := rfl
@[simp] theorem countSample_pixel (px py : Nat) : (s.countSample).pixel px py = s.pixel px py := rfl
@[simp] theorem countSample_width : (s.countSample).width = s.width := rfl
@[simp] theorem countSample_height : (s.countSample).height = s.height := rfl
@[simp] theorem countSample_effAddr (c : Nat) : (s.countSample).effAddr c = s.effAddr c := rfl

/-! ### Register reads after register writes -/

@[simp] theorem reg_setReg_self (x : Reg) (b : Byte) : (s.setReg x b).reg x = b := by
  simp [State.reg, State.setReg]

theorem reg_setReg (x y : Reg) (b : Byte) : (s.setReg x b).reg y = if y = x then b else s.reg y := by
  by_cases h : y = x
  · subst h; simp
  · have : x.val ≠ y.val := fun e => h (Fin.ext e.symm)
    simp [State.reg, State.setReg, h, Vector.getElem_set_ne, this]

@[simp] theorem reg_setReg_ne (x y : Reg) (b : Byte) (h : y ≠ x) : (s.setReg x b).reg y = s.reg y := by
  simp [reg_setReg, h]

theorem reg_setRegsUpTo (x y : Reg) (f : Nat → Byte) :
    (s.setRegsUpTo x f).reg y = if y.val ≤ x.val then f y.val else s.reg y := by
  simp [State.reg, State.setRegsUpTo]

end Sys2Proof.Machine.State
end

