-- ==== Sys2Proof/Laws/Memory.lean ====
section
/-! SUPPORT. Main memory: a read after a write, and that every operation keeps the canonical form. -/

namespace Sys2Proof.Machine

variable {bg : Nat → Byte}

theorem Memory.read_write_ne (m : List Host.Cell) {a c : Nat} (b : Byte) (h : c ≠ a) :
    Memory.read bg (Memory.write bg m a b) c = Memory.read bg m c := by
  have h' : a ≠ c := fun e => h e.symm
  induction m with
  | nil => unfold Memory.write; split <;> simp [Memory.read, h']
  | cons cell m ih =>
    obtain ⟨k, d⟩ := cell
    unfold Memory.write
    by_cases h1 : k < a
    · simp only [h1, if_true, Memory.read, ih]
    · by_cases h2 : k = a
      · subst h2
        by_cases h3 : b = bg k <;> simp [h3, Memory.read, h']
      · by_cases h3 : b = bg a <;> simp [h1, h2, h3, Memory.read, h']

theorem Memory.read_of_lt {lo : Nat} {m : List Host.Cell} (hm : Memory.wfFrom bg lo m = true) {a : Nat} (h : a < lo) :
    Memory.read bg m a = bg a := by
  induction m generalizing lo with
  | nil => rfl
  | cons cell m ih =>
    obtain ⟨k, d⟩ := cell
    simp only [Memory.wfFrom, Bool.and_eq_true, decide_eq_true_eq] at hm
    have hk : k ≠ a := by omega
    simp only [Memory.read, hk, if_false]
    exact ih hm.2 (by omega)

theorem Memory.wfFrom_mono {lo lo' : Nat} {m : List Host.Cell} (hm : Memory.wfFrom bg lo m = true) (h : lo' ≤ lo) :
    Memory.wfFrom bg lo' m = true := by
  cases m with
  | nil => rfl
  | cons cell m =>
    simp only [Memory.wfFrom, Bool.and_eq_true, decide_eq_true_eq] at hm ⊢
    exact ⟨⟨⟨by omega, hm.1.1.2⟩, hm.1.2⟩, hm.2⟩

theorem Memory.read_write_same {lo : Nat} {m : List Host.Cell} (hm : Memory.wfFrom bg lo m = true) (a : Nat) (b : Byte) :
    Memory.read bg (Memory.write bg m a b) a = b := by
  induction m generalizing lo with
  | nil =>
    unfold Memory.write
    by_cases h : b = bg a <;> simp [Memory.read, h]
  | cons cell m ih =>
    obtain ⟨k, d⟩ := cell
    simp only [Memory.wfFrom, Bool.and_eq_true, decide_eq_true_eq] at hm
    unfold Memory.write
    by_cases h1 : k < a
    · have hk : k ≠ a := by omega
      simp only [h1, if_true, Memory.read, hk, if_false]
      exact ih hm.2
    · by_cases h2 : k = a
      · subst h2
        by_cases h3 : b = bg k
        · simp [h3, Memory.read_of_lt hm.2]
        · simp [h3, Memory.read]
      · by_cases h3 : b = bg a
        · simp only [h1, if_false, h2, h3, if_true, Memory.read]
          exact Memory.read_of_lt hm.2 (by omega)
        · simp [h1, h2, h3, Memory.read]

theorem Memory.wfFrom_write {lo : Nat} {m : List Host.Cell} (hm : Memory.wfFrom bg lo m = true) {a : Nat} (b : Byte)
    (hlo : lo ≤ a) (ha : a < Config.memSize) : Memory.wfFrom bg lo (Memory.write bg m a b) = true := by
  induction m generalizing lo with
  | nil =>
    unfold Memory.write
    by_cases h : b = bg a <;> simp [Memory.wfFrom, h, hlo, ha]
  | cons cell m ih =>
    obtain ⟨k, d⟩ := cell
    have hm' := hm
    simp only [Memory.wfFrom, Bool.and_eq_true, decide_eq_true_eq] at hm'
    unfold Memory.write
    by_cases h1 : k < a
    · simp only [h1, if_true, Memory.wfFrom, Bool.and_eq_true, decide_eq_true_eq]
      exact ⟨hm'.1, ih hm'.2 (by omega)⟩
    · by_cases h2 : k = a
      · subst h2
        by_cases h3 : b = bg k
        · simp only [h1, if_false, h3, if_true]
          exact Memory.wfFrom_mono hm'.2 (by omega)
        · simp only [h1, if_false, if_true, h3, Memory.wfFrom, Bool.and_eq_true, decide_eq_true_eq]
          exact ⟨⟨⟨hlo, ha⟩, h3⟩, hm'.2⟩
      · by_cases h3 : b = bg a
        · simp only [h1, if_false, h2, h3, if_true]
          exact hm
        · simp only [h1, if_false, h2, h3, Memory.wfFrom, Bool.and_eq_true, decide_eq_true_eq]
          exact ⟨⟨⟨hlo, ha⟩, h3⟩, ⟨⟨⟨by omega, hm'.1.1.2⟩, hm'.1.2⟩, hm'.2⟩⟩

theorem Memory.wf_write {m : List Host.Cell} (hm : Memory.wf bg m = true) {a : Nat} (b : Byte)
    (ha : a < Config.memSize) : Memory.wf bg (Memory.write bg m a b) = true :=
  Memory.wfFrom_write hm b (Nat.zero_le a) ha

theorem Memory.wfFrom_cellsFrom (bs : List Byte) (a : Nat) (h : a + bs.length ≤ Config.memSize) :
    Memory.wfFrom bg a (Memory.cellsFrom bg a bs) = true := by
  induction bs generalizing a with
  | nil => rfl
  | cons b bs ih =>
    simp only [List.length_cons] at h
    have ih' := ih (a + 1) (by omega)
    unfold Memory.cellsFrom
    by_cases hb : b = bg a
    · simp only [hb, if_true]
      exact Memory.wfFrom_mono ih' (by omega)
    · simp only [hb, if_false, Memory.wfFrom, Bool.and_eq_true, decide_eq_true_eq]
      exact ⟨⟨⟨Nat.le_refl a, by omega⟩, hb⟩, ih'⟩

theorem Memory.read_cellsFrom_lt (bs : List Byte) {a c : Nat} (h : c < a) :
    Memory.read bg (Memory.cellsFrom bg a bs) c = bg c := by
  induction bs generalizing a with
  | nil => rfl
  | cons b bs ih =>
    have ih' := ih (a := a + 1) (by omega)
    have hk : a ≠ c := by omega
    unfold Memory.cellsFrom
    by_cases hb : b = bg a <;> simp [hb, Memory.read, hk, ih']

theorem Memory.read_cellsFrom (bs : List Byte) (a k : Nat) :
    Memory.read bg (Memory.cellsFrom bg a bs) (a + k) = (bs[k]?).getD (bg (a + k)) := by
  induction bs generalizing a k with
  | nil => rfl
  | cons b bs ih =>
    unfold Memory.cellsFrom
    cases k with
    | zero =>
      by_cases hb : b = bg a
      · simp [hb, Memory.read_cellsFrom_lt]
      · simp [hb, Memory.read]
    | succ k =>
      have ih' := ih (a + 1) k
      have e : a + 1 + k = a + (k + 1) := by omega
      rw [e] at ih'
      have hk : a ≠ a + (k + 1) := by omega
      by_cases hb : b = bg a <;> simp [hb, Memory.read, ih']

/-! ### The same at the level of the state -/

namespace State

variable (s : State)

theorem readByte_writeByte_ne {a c : Nat} (b : Byte) (h : c ≠ a) : (s.writeByte a b).readByte c = s.readByte c :=
  Memory.read_write_ne s.mem b h

theorem readByte_writeByte_same (hm : Memory.wf (background s.params) s.mem = true) (a : Nat) (b : Byte) :
    (s.writeByte a b).readByte a = b :=
  Memory.read_write_same hm a b

/-- What a multi-byte store can do: it writes `mem` and nothing else. -/
theorem writeBytes_eq (a : Nat) (bs : List Byte) : ∃ m, s.writeBytes a bs = { s with mem := m } := by
  induction bs generalizing s a with
  | nil => exact ⟨s.mem, rfl⟩
  | cons b bs ih => exact ih (s.writeByte a b) (a + 1)

theorem wf_writeBytes (hm : Memory.wf (background s.params) s.mem = true) (a : Nat) (bs : List Byte)
    (h : a + bs.length ≤ Config.memSize) :
    Memory.wf (background (s.writeBytes a bs).params) (s.writeBytes a bs).mem = true := by
  induction bs generalizing s a with
  | nil => exact hm
  | cons b bs ih =>
    simp only [List.length_cons] at h
    exact ih (s.writeByte a b) (Memory.wf_write hm b (by omega)) (a + 1) (by omega)

theorem readByte_writeBytes_out (a : Nat) (bs : List Byte) {c : Nat} (h : c < a ∨ a + bs.length ≤ c) :
    (s.writeBytes a bs).readByte c = s.readByte c := by
  induction bs generalizing s a with
  | nil => rfl
  | cons b bs ih =>
    simp only [List.length_cons] at h
    show ((s.writeByte a b).writeBytes (a + 1) bs).readByte c = _
    rw [ih (s.writeByte a b) (a + 1) (by omega)]
    exact s.readByte_writeByte_ne b (by omega)

theorem readByte_writeBytes_in (hm : Memory.wf (background s.params) s.mem = true) (a : Nat) (bs : List Byte)
    (h : a + bs.length ≤ Config.memSize) {k : Nat} (hk : k < bs.length) :
    (s.writeBytes a bs).readByte (a + k) = bs[k] := by
  induction bs generalizing s a k with
  | nil => simp at hk
  | cons b bs ih =>
    simp only [List.length_cons] at h hk
    show ((s.writeByte a b).writeBytes (a + 1) bs).readByte (a + k) = _
    cases k with
    | zero =>
      rw [readByte_writeBytes_out _ (a + 1) bs (by omega)]
      exact s.readByte_writeByte_same hm a b
    | succ k =>
      have ih' := ih (s.writeByte a b) (Memory.wf_write hm b (by omega)) (a + 1) (by omega) (k := k) (by omega)
      have e : a + 1 + k = a + (k + 1) := by omega
      rw [e] at ih'
      simpa using ih'

@[simp] theorem writeBytes_params (a : Nat) (bs : List Byte) : (s.writeBytes a bs).params = s.params := by
  obtain ⟨m, hm⟩ := s.writeBytes_eq a bs; rw [hm]

@[simp] theorem writeBytes_i (a : Nat) (bs : List Byte) : (s.writeBytes a bs).i = s.i := by
  obtain ⟨m, hm⟩ := s.writeBytes_eq a bs; rw [hm]

@[simp] theorem writeBytes_dialect (a : Nat) (bs : List Byte) : (s.writeBytes a bs).dialect = s.dialect := by
  obtain ⟨m, hm⟩ := s.writeBytes_eq a bs; rw [hm]

@[simp] theorem writeBytes_reg (a : Nat) (bs : List Byte) (x : Reg) : (s.writeBytes a bs).reg x = s.reg x := by
  obtain ⟨m, hm⟩ := s.writeBytes_eq a bs; rw [hm]; rfl

end State

/-- A ROM loaded by Reset leaves memory canonical. -/
theorem wf_romCells (p : Config.Params) (rom : List Byte) : Memory.wf (background p) (romCells p rom) = true := by
  refine Memory.wfFrom_mono (Memory.wfFrom_cellsFrom _ Config.progBase ?_) (Nat.zero_le _)
  simp only [List.length_take, Config.progBase, Config.romMax, Config.memSize]
  omega

theorem wf_reset : Memory.wf (background State.reset.params) State.reset.mem = true := rfl

end Sys2Proof.Machine
end

