-- ==== Sys2Proof/Laws/Ops.lean ====
section
/-! SUPPORT. One lemma for each shared operation that says once everything it can do. -/

namespace Sys2Proof.Machine

/-- A range passes the check exactly when it is empty or ends inside memory (`20_memory.md` R58). -/
theorem rangeOk_iff (a k : Nat) : rangeOk a k = true ↔ k = 0 ∨ a + k ≤ 4096 := by
  unfold rangeOk lastAddr
  rw [Bool.or_eq_true, decide_eq_true_eq, decide_eq_true_eq]; omega

theorem tickCounter_toNat (b : Byte) : (tickCounter b).toNat = b.toNat - 1 := by
  unfold tickCounter
  split
  · have := b.isLt
    rw [BitVec.toNat_sub, show (1 : Byte).toNat = 1 from rfl]; omega
  · omega

theorem flagByte_toNat (c : Bool) : (flagByte c).toNat = if c then 1 else 0 := by cases c <;> rfl

theorem firstDigit_lt (b : Byte) : b.toNat / 100 ≤ 2 := by have := b.isLt; omega

@[simp] theorem bcdDigits_length (b : Byte) : (bcdDigits b).length = 3 := rfl

/-- The pixel rows after one flip: the flipped pixel is inverted, every other pixel is as before. -/
theorem pixelOf_flipPixel (fb : Vector (BitVec 128) 64) (x y a b : Nat) (hx : x < 128) (hy : y < 64) :
    pixelOf (flipPixel fb x y) a b = (pixelOf fb a b ^^ decide (a = x ∧ b = y)) := by
  unfold pixelOf flipPixel
  by_cases hb : b < 64
  · by_cases e : b = y
    · subst e
      simp only [hb, dif_pos, Vector.getElem_set_self, BitVec.getLsbD_xor, BitVec.getLsbD_shiftLeft,
        BitVec.getLsbD_one]
      by_cases ea : a = x
      · subst ea; simp [hx]
      · rcases Nat.lt_or_ge a x with h | h
        · simp [h, ea]
        · have : a - x ≠ 0 := by omega
          simp [this, ea]
    · have e' : y ≠ b := fun h => e h.symm
      simp [hb, hy, Vector.getElem_set_ne, e', e]
  · have : b ≠ y := by omega
    simp [hb, this]

/-- A blank screen has no pixel lit. -/
@[simp] theorem pixelOf_blank (x y : Nat) : pixelOf (Vector.replicate 64 0) x y = false := by
  simp [pixelOf]

namespace State

variable (s : State)

theorem setIndex_toNat (n : Nat) : (s.setIndex n).i.toNat = n % 0x1000 := by
  simp only [setIndex_i, BitVec.toNat_ofNat]; omega

/-- `Push` fails exactly on a full stack (`10_state.md` R28). -/
theorem push_eq_none_iff (v : Word) : s.push v = none ↔ s.sp.val = 16 := by
  have := s.sp.isLt
  unfold State.push
  split <;> simp <;> omega

/-- What `Push` can do. -/
theorem push_cases {v : Word} {t : State} (h : s.push v = some t) :
    ∃ hs : s.sp.val < 16, t = { s with stack := s.stack.set s.sp.val v hs, sp := ⟨s.sp.val + 1, by omega⟩ } := by
  unfold State.push at h
  split at h
  · next hs => exact ⟨hs, (Option.some.inj h).symm⟩
  · cases h

/-- `Pop` fails exactly on an empty stack (`10_state.md` R29). -/
theorem pop_eq_none_iff : s.pop = none ↔ s.sp.val = 0 := by
  unfold State.pop
  split <;> simp <;> omega

/-- What `Pop` can do. -/
theorem pop_cases {v : Word} {t : State} (h : s.pop = some (v, t)) :
    ∃ hs : 0 < s.sp.val, v = s.stack[s.sp.val - 1] ∧ t = { s with sp := ⟨s.sp.val - 1, by omega⟩ } := by
  unfold State.pop at h
  split at h
  · next hs =>
    have h' := Option.some.inj h
    exact ⟨hs, (congrArg Prod.fst h').symm, (congrArg Prod.snd h').symm⟩
  · cases h

/-- The fetch fails exactly at `pc >= 4095` (`20_memory.md` R57). -/
theorem fetch_eq_none_iff : s.fetch = none ↔ 4095 ≤ s.pc.toNat := by
  unfold State.fetch
  split <;> simp <;> omega

theorem fetch_eq_some (h : s.pc.toNat ≤ 4094) :
    s.fetch = some (wordOfBytes (s.readByte s.pc.toNat) (s.readByte (s.pc.toNat + 1))) := by
  unfold State.fetch
  rw [if_neg (by omega)]

/-- A skip either advances `pc` or changes nothing. -/
theorem skipIf_cases (c : Bool) : (c = true ∧ s.skipIf c = s.advance) ∨ (c = false ∧ s.skipIf c = s) := by
  cases c <;> simp [State.skipIf]

/-- A held slot ends where it began. -/
theorem hold_advance : s.advance.hold = s := by
  show { s with pc := s.pc + 2 - 2 } = s
  simp

theorem width_le : s.width ≤ 128 := by unfold State.width; split <;> omega

theorem height_le : s.height ≤ 64 := by unfold State.height; split <;> omega

theorem width_ge : 64 ≤ s.width := by unfold State.width; split <;> omega

theorem height_ge : 32 ≤ s.height := by unfold State.height; split <;> omega

/-- A sprite pixel lands on the screen or nowhere. -/
theorem place_cases {px py a b : Nat} (h : s.place px py = some (a, b)) :
    a < s.width ∧ b < s.height ∧
      ((s.edgeMode = .wrap ∧ a = px % s.width ∧ b = py % s.height) ∨ (s.edgeMode = .clip ∧ a = px ∧ b = py)) := by
  have hw := s.width_ge
  have hh := s.height_ge
  unfold State.place at h
  split at h
  · next hm =>
    obtain ⟨rfl, rfl⟩ := Prod.mk.inj (Option.some.inj h)
    exact ⟨Nat.mod_lt _ (by omega), Nat.mod_lt _ (by omega), Or.inl ⟨hm, rfl, rfl⟩⟩
  · next hm =>
    split at h
    · next hb =>
      obtain ⟨rfl, rfl⟩ := Prod.mk.inj (Option.some.inj h)
      exact ⟨hb.1, hb.2, Or.inr ⟨hm, rfl, rfl⟩⟩
    · cases h

/-- The screen positions a sprite touches: its bits that are 1 and are not clipped. -/
theorem mem_spritePixels (x y : Reg) (n : Nat) (p : Nat × Nat) :
    p ∈ s.spritePixels x y n ↔ ∃ row col, row < n ∧ col < 8 ∧ s.spriteBit row col = true ∧
      s.place ((s.origin x y).1 + col) ((s.origin x y).2 + row) = some p := by
  simp only [State.spritePixels, List.mem_flatMap, List.mem_range, List.mem_filterMap]
  constructor
  · rintro ⟨row, hr, col, hc, h⟩
    split at h
    · next hb => exact ⟨row, col, hr, hc, hb, h⟩
    · cases h
  · rintro ⟨row, col, hr, hc, hb, h⟩
    exact ⟨row, hr, col, hc, by simp [hb, h]⟩

/-- Every position a sprite touches is on the screen. -/
theorem spritePixels_bounds {x y : Reg} {n : Nat} {p : Nat × Nat} (h : p ∈ s.spritePixels x y n) :
    p.1 < s.width ∧ p.2 < s.height := by
  obtain ⟨row, col, _, _, _, hp⟩ := (s.mem_spritePixels x y n p).1 h
  obtain ⟨h1, h2, _⟩ := s.place_cases (a := p.1) (b := p.2) hp
  exact ⟨h1, h2⟩

end State

/-- Touching a list of distinct positions inverts exactly those pixels, collides exactly if one of them was lit, and
changes something exactly if there is one. -/
theorem foldl_touch (ps : List (Nat × Nat)) (d : Drawing) (hnd : ps.Nodup) (hin : ∀ p ∈ ps, p.1 < 128 ∧ p.2 < 64) :
    (∀ a b, pixelOf (ps.foldl Drawing.touch d).fb a b = (pixelOf d.fb a b ^^ decide ((a, b) ∈ ps))) ∧
    (ps.foldl Drawing.touch d).coll = (d.coll || ps.any fun p => pixelOf d.fb p.1 p.2) ∧
    (ps.foldl Drawing.touch d).changed = (d.changed || !ps.isEmpty) := by
  induction ps generalizing d with
  | nil => simp
  | cons p ps ih =>
    have hp := hin p (by simp)
    obtain ⟨hnot, hnd'⟩ := List.nodup_cons.1 hnd
    have hfb : ∀ a b, pixelOf (d.touch p).fb a b = (pixelOf d.fb a b ^^ decide (a = p.1 ∧ b = p.2)) := fun a b =>
      pixelOf_flipPixel d.fb p.1 p.2 a b hp.1 hp.2
    obtain ⟨h1, h2, h3⟩ := ih (d.touch p) hnd' fun q hq => hin q (by simp [hq])
    refine ⟨fun a b => ?_, ?_, ?_⟩
    · rw [List.foldl_cons, h1, hfb]
      by_cases e : (a, b) = p
      · subst e; simp [hnot]
      · have e' : ¬(a = p.1 ∧ b = p.2) := fun h => e (Prod.ext h.1 h.2)
        simp [e, e']
    · rw [List.foldl_cons, h2]
      have hany : (ps.any fun q => pixelOf (d.touch p).fb q.1 q.2) = ps.any fun q => pixelOf d.fb q.1 q.2 := by
        apply Bool.eq_iff_iff.2
        simp only [List.any_eq_true]
        constructor <;> rintro ⟨q, hq, hv⟩ <;> refine ⟨q, hq, ?_⟩
        · have hne : ¬(q.1 = p.1 ∧ q.2 = p.2) := fun h => hnot (by rw [← Prod.ext h.1 h.2]; exact hq)
          simpa [hfb, hne] using hv
        · have hne : ¬(q.1 = p.1 ∧ q.2 = p.2) := fun h => hnot (by rw [← Prod.ext h.1 h.2]; exact hq)
          simpa [hfb, hne] using hv
      rw [hany]
      simp [Drawing.touch, Bool.or_assoc]
    · rw [List.foldl_cons, h3]
      simp [Drawing.touch]

end Sys2Proof.Machine
end

