-- ==== Sys2Proof/Laws/Step.lean ====
section
/-! SUPPORT. What a slot and a step can do, said once. -/

namespace Sys2Proof.Machine

/-- The ways a slot can go (`30_encoding.md` R70, `60_exceptions.md` R208). -/
theorem slot_cases (s : State) :
    (s.status ≠ .running ∧ slot s = .next s) ∨
    (s.status = .running ∧ s.inputs.powerOffReq = true ∧ slot s = .next (s.setStatus .halted)) ∨
    (s.status = .running ∧ s.inputs.powerOffReq = false ∧ 4095 ≤ s.pc.toNat ∧ slot s = .next s.raiseFetch) ∨
    (s.status = .running ∧ s.inputs.powerOffReq = false ∧ s.pc.toNat ≤ 4094 ∧
      slot s = runWord (wordOfBytes (s.readByte s.pc.toNat) (s.readByte (s.pc.toNat + 1))) s.advance) := by
  unfold slot
  cases hs : s.status with
  | halted => exact Or.inl ⟨by simp, rfl⟩
  | faulted => exact Or.inl ⟨by simp, rfl⟩
  | running =>
    by_cases hp : s.inputs.powerOffReq = true
    · exact Or.inr (Or.inl ⟨rfl, hp, by simp [hp]⟩)
    · have hp' : s.inputs.powerOffReq = false := by simpa using hp
      rcases Nat.lt_or_ge s.pc.toNat 4095 with h | h
      · exact Or.inr (Or.inr (Or.inr ⟨rfl, hp', by omega, by
          simp [hp', s.fetch_eq_some (by omega : s.pc.toNat ≤ 4094)]⟩))
      · exact Or.inr (Or.inr (Or.inl ⟨rfl, hp', h, by simp [hp', (s.fetch_eq_none_iff).2 h]⟩))

/-- A fetched word that decodes runs its instruction. -/
theorem runWord_ok {w : Word} {i : Instr} (h : decodeWord w = .ok i) (s : State) : runWord w s = exec i s := by
  simp [runWord, h]

/-- A fetched word that does not is reported. -/
theorem runWord_error {w : Word} {e : DecodeError} (h : decodeWord w = .error e) (s : State) :
    runWord w s = .next (s.doUnknown w) := by
  simp [runWord, h]

/-- Taking the next event off changes nothing but the schedule. -/
theorem nextEvent_state (s : State) :
    ∃ q b, s.nextEvent.2 = { s with schedule := q, beyond := b } := by
  unfold State.nextEvent
  split
  · next rest _ => exact ⟨rest, s.beyond, rfl⟩
  · split
    · exact ⟨s.schedule, s.beyond, rfl⟩
    · next k _ => exact ⟨s.schedule, .free (k + 1), rfl⟩

/-- `eventAt` counts from the event the next step takes. -/
theorem eventAt_zero (s : State) : s.eventAt 0 = s.nextEvent.1 := by
  unfold State.eventAt State.nextEvent
  cases hs : s.schedule with
  | cons e rest => rfl
  | nil => cases hb : s.beyond <;> rfl

/-- Taking the next event off moves every later one forward by one. -/
theorem eventAt_succ (s : State) (k : Nat) : s.eventAt (k + 1) = s.nextEvent.2.eventAt k := by
  unfold State.eventAt State.nextEvent
  cases hs : s.schedule with
  | cons e rest => simp
  | nil =>
    cases hb : s.beyond with
    | slots => simp [hs, hb]
    | free j => simp [Nat.add_comm k 1, Nat.add_assoc]

/-- A fair schedule stays fair when its next event is taken off. -/
theorem fair_nextEvent {s : State} (h : s.fair) : s.nextEvent.2.fair := by
  intro kind n
  obtain ⟨m, hm, he⟩ := h kind (n + 1)
  obtain ⟨k, rfl⟩ : ∃ k, m = k + 1 := ⟨m - 1, by omega⟩
  exact ⟨k, by omega, by rw [← eventAt_succ]; exact he⟩

/-- Under a fair schedule a held DXYN gets its gate (`60_exceptions.md` R217). -/
theorem Fair.gateOpen {events : Nat → Config.HostEvent} (h : Fair events) (n : Nat) :
    ∃ m, n ≤ m ∧ events m = .gateOpen := by
  obtain ⟨m, hm, he⟩ := h .gateOpen n
  exact ⟨m, hm, by cases hv : events m <;> simp [hv, kindOf] at he ⊢⟩

/-- Under a fair schedule the timers keep ticking (`60_exceptions.md` R217). -/
theorem Fair.timerTick {events : Nat → Config.HostEvent} (h : Fair events) (n : Nat) :
    ∃ m, n ≤ m ∧ events m = .timerTick := by
  obtain ⟨m, hm, he⟩ := h .timerTick n
  exact ⟨m, hm, by cases hv : events m <;> simp [hv, kindOf] at he ⊢⟩

end Sys2Proof.Machine
end

