-- ==== Sys2Proof/Laws/Exec.lean ====
section
/-! SUPPORT. What each instruction that can go more than one way can do, what the dialect-dependent updates touch, and that
a sprite touches no pixel twice (`44_draw.md` R174). -/

namespace Sys2Proof.Machine

variable {s t : State}

@[simp] theorem State.raiseIn_eq (s : State) (i : Instr) (k : FaultKind) :
    s.raiseIn i k = s.raise k (s.pc - 2) (encode i) := rfl

@[simp] theorem State.clearScreen_eq (s : State) : s.clearScreen = s.setScreen (Vector.replicate 64 0) := rfl

@[simp] theorem State.reallocate_eq (s : State) (h : Bool) :
    s.reallocate h = ((s.selectResolution h).setScreen (Vector.replicate 64 0)).setDirty true := rfl

theorem next_inj {a b : State} (h : (Host.Outcome.next a : Host.Outcome State Fault Refusal) = .next b) : b = a := by
  cases h; rfl

/-- 00EE returns, or faults on an empty stack. -/
theorem execRet_cases (h : exec .ret s = .next t) :
    (∃ hs : 0 < s.sp.val, t = { s with sp := ⟨s.sp.val - 1, by omega⟩, pc := s.stack[s.sp.val - 1] }) ∨
    (s.sp.val = 0 ∧ t = s.raiseIn .ret .stackUnderflow) := by
  simp only [exec, execRet] at h
  split at h
  · next hp =>
    obtain ⟨hs, rfl, rfl⟩ := s.pop_cases hp
    exact Or.inl ⟨hs, next_inj h⟩
  · next hp => exact Or.inr ⟨(s.pop_eq_none_iff).1 hp, next_inj h⟩

/-- 2NNN calls, or faults on a full stack. -/
theorem execCall_cases {nnn : BitVec 12} (h : exec (.call nnn) s = .next t) :
    (∃ hs : s.sp.val < 16, t = { s with
      stack := s.stack.set s.sp.val s.pc hs, sp := ⟨s.sp.val + 1, by omega⟩, pc := nnn.setWidth 16 }) ∨
    (s.sp.val = 16 ∧ t = s.raiseIn (.call nnn) .stackOverflow) := by
  simp only [exec, execCall] at h
  split at h
  · next hp =>
    obtain ⟨hs, rfl⟩ := s.push_cases hp
    exact Or.inl ⟨hs, next_inj h⟩
  · next hp => exact Or.inr ⟨(s.push_eq_none_iff _).1 hp, next_inj h⟩

/-- FX33 stores three bytes, or faults. -/
theorem execLdB_cases {x : Reg} (h : exec (.ldB x) s = .next t) :
    (s.i.toNat + 2 ≤ 4095 ∧ t = s.writeBytes s.i.toNat (bcdDigits (s.reg x))) ∨
    (4095 < s.i.toNat + 2 ∧ t = s.raiseIn (.ldB x) (.memoryOutOfBounds (s.i.toNat + 2))) := by
  simp only [exec, execLdB] at h
  split at h
  · next hr => exact Or.inl ⟨by have := (rangeOk_iff _ _).1 hr; simp [State.effAddr] at this; omega, next_inj h⟩
  · next hr => exact Or.inr ⟨by rw [rangeOk_iff] at hr; simp [State.effAddr] at hr; omega, next_inj h⟩

/-- FX55 stores the block and moves `I`, or faults. -/
theorem execStoreRegs_cases {x : Reg} (h : exec (.storeRegs x) s = .next t) :
    (s.i.toNat + x.val ≤ 4095 ∧ t = (s.writeBytes s.i.toNat (s.regsUpTo x)).autoIncrement x) ∨
    (4095 < s.i.toNat + x.val ∧ t = s.raiseIn (.storeRegs x) (.memoryOutOfBounds (s.i.toNat + x.val))) := by
  simp only [exec, execStoreRegs] at h
  split at h
  · next hr => exact Or.inl ⟨by have := (rangeOk_iff _ _).1 hr; simp [State.effAddr] at this; omega, next_inj h⟩
  · next hr => exact Or.inr ⟨by rw [rangeOk_iff] at hr; simp [State.effAddr] at hr; omega, next_inj h⟩

/-- FX65 loads the block and moves `I`, or faults. -/
theorem execLoadRegs_cases {x : Reg} (h : exec (.loadRegs x) s = .next t) :
    (s.i.toNat + x.val ≤ 4095 ∧ t = (s.setRegsUpTo x fun k => s.readByte (s.effAddr k)).autoIncrement x) ∨
    (4095 < s.i.toNat + x.val ∧ t = s.raiseIn (.loadRegs x) (.memoryOutOfBounds (s.i.toNat + x.val))) := by
  simp only [exec, execLoadRegs] at h
  split at h
  · next hr => exact Or.inl ⟨by have := (rangeOk_iff _ _).1 hr; simp [State.effAddr] at this; omega, next_inj h⟩
  · next hr => exact Or.inr ⟨by rw [rangeOk_iff] at hr; simp [State.effAddr] at hr; omega, next_inj h⟩

/-- DXYN holds, draws, or faults. -/
theorem execDrw_cases {x y : Reg} {n : Nat} (h : exec (.drw x y n) s = .next t) :
    (s.gateOpen = false ∧ t = s.hold) ∨
    (s.gateOpen = true ∧ (n = 0 ∨ s.i.toNat + n ≤ 4096) ∧ t = s.drawSprite x y n) ∨
    (s.gateOpen = true ∧ 0 < n ∧ 4096 < s.i.toNat + n ∧
      t = s.raiseIn (.drw x y n) (.memoryOutOfBounds (s.i.toNat + n - 1))) := by
  simp only [exec, execDrw] at h
  split at h
  · next hg =>
    split at h
    · next hr => exact Or.inr (Or.inl ⟨hg, (rangeOk_iff _ _).1 hr, next_inj h⟩)
    · next hr =>
      rw [rangeOk_iff] at hr
      simp [State.effAddr] at hr
      exact Or.inr (Or.inr ⟨hg, by omega, by omega, next_inj h⟩)
  · next hg => exact Or.inl ⟨by simpa using hg, next_inj h⟩

/-- FX0A takes the first released key, or holds. -/
theorem execLdVxK_cases {x : Reg} (h : exec (.ldVxK x) s = .next t) :
    (∃ k, s.firstReleased = some k ∧ t = s.setReg x (BitVec.ofNat 8 k)) ∨ (s.firstReleased = none ∧ t = s.hold) := by
  simp only [exec, execLdVxK] at h
  split at h
  · next k hk => exact Or.inl ⟨k, hk, next_inj h⟩
  · next hk => exact Or.inr ⟨hk, next_inj h⟩

namespace State

/-- A write with a flag: VF holds the flag, any other register the result or what it held. -/
theorem reg_setResultFlag (s : State) (x r : Reg) (b : Byte) (c : Bool) :
    (s.setResultFlag x b c).reg r = if r = VF then flagByte c else if r = x then b else s.reg r := by
  simp [State.setResultFlag, State.reg_setReg]

theorem setResultFlag_eq (s : State) (x : Reg) (b : Byte) (c : Bool) :
    ∃ v, s.setResultFlag x b c = { s with v := v } := ⟨_, rfl⟩

/-- A logic result: VF is cleared in the CHIP8 dialect only. -/
theorem reg_setLogic (s : State) (x r : Reg) (b : Byte) :
    (s.setLogic x b).reg r =
      if s.dialect = .chip8 ∧ r = VF then 0 else if r = x then b else s.reg r := by
  unfold State.setLogic
  split <;> next hd => simp [State.reg_setReg, hd]

theorem setLogic_eq (s : State) (x : Reg) (b : Byte) : ∃ v, s.setLogic x b = { s with v := v } := by
  unfold State.setLogic
  split <;> exact ⟨_, rfl⟩

/-- The block instructions move `I` in the CHIP8 dialect only. -/
theorem autoIncrement_cases (s : State) (x : Reg) :
    (s.dialect = .chip8 ∧ s.autoIncrement x = s.setIndex (s.i.toNat + x.val + 1)) ∨
    (s.dialect = .schip ∧ s.autoIncrement x = s) := by
  unfold State.autoIncrement
  split <;> next hd => simp [hd]

theorem autoIncrement_eq (s : State) (x : Reg) : ∃ i, s.autoIncrement x = { s with i := i } := by
  rcases s.autoIncrement_cases x with ⟨_, h⟩ | ⟨_, h⟩
  · exact ⟨_, h⟩
  · exact ⟨s.i, h⟩

/-- Two sprite bits that land on one pixel are the same bit. -/
theorem place_inj (s : State) (x y : Reg) {r c r' c' : Nat} {p : Nat × Nat} (hr : r < 15) (hr' : r' < 15) (hc : c < 8)
    (hc' : c' < 8) (h : s.place ((s.origin x y).1 + c) ((s.origin x y).2 + r) = some p)
    (h' : s.place ((s.origin x y).1 + c') ((s.origin x y).2 + r') = some p) : r = r' ∧ c = c' := by
  obtain ⟨_, _, h3⟩ := s.place_cases (a := p.1) (b := p.2) h
  obtain ⟨_, _, h3'⟩ := s.place_cases (a := p.1) (b := p.2) h'
  have hw := s.width_ge
  have hh := s.height_ge
  have key : ∀ o a b m : Nat, a < 15 → b < 15 → 15 ≤ m → (o + a) % m = (o + b) % m → a = b := by
    intro o a b m ha hb hm e
    have e' : a % m = b % m := Nat.ModEq.add_left_cancel' o e
    rwa [Nat.mod_eq_of_lt (by omega), Nat.mod_eq_of_lt (by omega)] at e'
  rcases h3 with ⟨m, e1, e2⟩ | ⟨m, e1, e2⟩ <;> rcases h3' with ⟨m', f1, f2⟩ | ⟨m', f1, f2⟩
  · exact ⟨key _ _ _ _ hr hr' (by omega) (e2.symm.trans f2),
      key _ _ _ _ (by omega) (by omega) (by omega) (e1.symm.trans f1)⟩
  · rw [m] at m'; cases m'
  · rw [m] at m'; cases m'
  · omega

/-- No pixel is touched twice by one DXYN (`44_draw.md` R174). -/
theorem nodup_spritePixels (s : State) (x y : Reg) {n : Nat} (hn : n ≤ 15) : (s.spritePixels x y n).Nodup := by
  have hit : ∀ {row col : Nat} {p : Nat × Nat},
      (if s.spriteBit row col then s.place ((s.origin x y).1 + col) ((s.origin x y).2 + row) else none) = some p →
      s.place ((s.origin x y).1 + col) ((s.origin x y).2 + row) = some p := by
    intro row col p h
    split at h
    · exact h
    · cases h
  unfold State.spritePixels
  rw [List.nodup_flatMap]
  refine ⟨fun row hr => ?_, List.nodup_range.imp_of_mem fun {r r'} hr hr' hne p hp hq => ?_⟩
  · have hr' : row < n := by simpa using hr
    refine List.pairwise_filterMap.2 (List.nodup_range.imp_of_mem fun {c c'} hc hc' hne p hp q hq e => hne ?_)
    subst e
    exact (s.place_inj x y (by omega : row < 15) (by omega) (by simpa using hc) (by simpa using hc') (hit hp)
      (hit hq)).2
  · obtain ⟨c, hc, hp⟩ := List.mem_filterMap.1 hp
    obtain ⟨c', hc', hq⟩ := List.mem_filterMap.1 hq
    have h1 : r < n := by simpa using hr
    have h2 : r' < n := by simpa using hr'
    exact hne (s.place_inj x y (by omega) (by omega) (by simpa using hc) (by simpa using hc') (hit hp) (hit hq)).1

end State

end Sys2Proof.Machine
end

