-- ==== Sys2Proof/Laws/PerInstr.lean ====
section
/-! SUPPORT. Statements made for every instruction, one lemma a constructor. -/

namespace Sys2Proof.Laws.EncodingRow

/-- The word of a well-formed instruction carries the fixed bits of the instruction's own row of the opcode map
(`30_encoding.md` R77). -/
def Statement (i : Instr) : Prop :=
  i.wellFormed = true → ∃ r ∈ opcodeRows, r.mnemonic = i.mnemonic ∧ (encode i &&& r.mask) = r.pattern

/-- A word of the row `k` of the map satisfies the statement's conclusion. -/
theorem of_row {w : Word} {m : String} (r : OpcodeRow) (hr : r ∈ opcodeRows) (hm : r.mnemonic = m)
    (hw : (w &&& r.mask) = r.pattern) : ∃ r ∈ opcodeRows, r.mnemonic = m ∧ (w &&& r.mask) = r.pattern :=
  ⟨r, hr, hm, hw⟩

theorem cls : Statement .cls := fun _ =>
  of_row ⟨"CLS", 0xFFFF, 0x00E0⟩ (by decide) rfl rfl

theorem ret : Statement .ret := fun _ =>
  of_row ⟨"RET", 0xFFFF, 0x00EE⟩ (by decide) rfl rfl

theorem exit : Statement .exit := fun _ =>
  of_row ⟨"EXIT", 0xFFFF, 0x00FD⟩ (by decide) rfl rfl

theorem low : Statement .low := fun _ =>
  of_row ⟨"LOW", 0xFFFF, 0x00FE⟩ (by decide) rfl rfl

theorem high : Statement .high := fun _ =>
  of_row ⟨"HIGH", 0xFFFF, 0x00FF⟩ (by decide) rfl rfl

theorem jp (nnn : BitVec 12) : Statement (.jp nnn) := fun _ =>
  of_row ⟨"JP_nnn", 0xF000, 0x1000⟩ (by decide) rfl ((and_F000_eq _ _).2 (by simp [encode, opField_wordNNN, nnn.isLt]))

theorem call (nnn : BitVec 12) : Statement (.call nnn) := fun _ =>
  of_row ⟨"CALL_nnn", 0xF000, 0x2000⟩ (by decide) rfl ((and_F000_eq _ _).2 (by simp [encode, opField_wordNNN, nnn.isLt]))

theorem seImm (x : Reg) (nn : Byte) : Statement (.seImm x nn) := fun _ =>
  of_row ⟨"SE_Vx__nn", 0xF000, 0x3000⟩ (by decide) rfl ((and_F000_eq _ _).2 (by simp [encode, opField_wordXNN, x.isLt, nn.isLt]))

theorem sneImm (x : Reg) (nn : Byte) : Statement (.sneImm x nn) := fun _ =>
  of_row ⟨"SNE_Vx__nn", 0xF000, 0x4000⟩ (by decide) rfl ((and_F000_eq _ _).2 (by simp [encode, opField_wordXNN, x.isLt, nn.isLt]))

theorem seReg (x : Reg) (y : Reg) : Statement (.seReg x y) := fun _ =>
  of_row ⟨"SE_Vx__Vy", 0xF00F, 0x5000⟩ (by decide) rfl ((and_F00F_eq _ _).2 (by simp [encode, opField_wordXYN, nField_wordXYN]))

theorem ldImm (x : Reg) (nn : Byte) : Statement (.ldImm x nn) := fun _ =>
  of_row ⟨"LD_Vx__nn", 0xF000, 0x6000⟩ (by decide) rfl ((and_F000_eq _ _).2 (by simp [encode, opField_wordXNN, x.isLt, nn.isLt]))

theorem addImm (x : Reg) (nn : Byte) : Statement (.addImm x nn) := fun _ =>
  of_row ⟨"ADD_Vx__nn", 0xF000, 0x7000⟩ (by decide) rfl ((and_F000_eq _ _).2 (by simp [encode, opField_wordXNN, x.isLt, nn.isLt]))

theorem ldReg (x : Reg) (y : Reg) : Statement (.ldReg x y) := fun _ =>
  of_row ⟨"LD_Vx__Vy", 0xF00F, 0x8000⟩ (by decide) rfl ((and_F00F_eq _ _).2 (by simp [encode, opField_wordXYN, nField_wordXYN]))

theorem orReg (x : Reg) (y : Reg) : Statement (.orReg x y) := fun _ =>
  of_row ⟨"OR_Vx__Vy", 0xF00F, 0x8001⟩ (by decide) rfl ((and_F00F_eq _ _).2 (by simp [encode, opField_wordXYN, nField_wordXYN]))

theorem andReg (x : Reg) (y : Reg) : Statement (.andReg x y) := fun _ =>
  of_row ⟨"AND_Vx__Vy", 0xF00F, 0x8002⟩ (by decide) rfl ((and_F00F_eq _ _).2 (by simp [encode, opField_wordXYN, nField_wordXYN]))

theorem xorReg (x : Reg) (y : Reg) : Statement (.xorReg x y) := fun _ =>
  of_row ⟨"XOR_Vx__Vy", 0xF00F, 0x8003⟩ (by decide) rfl ((and_F00F_eq _ _).2 (by simp [encode, opField_wordXYN, nField_wordXYN]))

theorem addReg (x : Reg) (y : Reg) : Statement (.addReg x y) := fun _ =>
  of_row ⟨"ADD_Vx__Vy", 0xF00F, 0x8004⟩ (by decide) rfl ((and_F00F_eq _ _).2 (by simp [encode, opField_wordXYN, nField_wordXYN]))

theorem sub (x : Reg) (y : Reg) : Statement (.sub x y) := fun _ =>
  of_row ⟨"SUB_Vx__Vy", 0xF00F, 0x8005⟩ (by decide) rfl ((and_F00F_eq _ _).2 (by simp [encode, opField_wordXYN, nField_wordXYN]))

theorem shr (x : Reg) (y : Reg) : Statement (.shr x y) := fun _ =>
  of_row ⟨"SHR_Vx__Vy", 0xF00F, 0x8006⟩ (by decide) rfl ((and_F00F_eq _ _).2 (by simp [encode, opField_wordXYN, nField_wordXYN]))

theorem subn (x : Reg) (y : Reg) : Statement (.subn x y) := fun _ =>
  of_row ⟨"SUBN_Vx__Vy", 0xF00F, 0x8007⟩ (by decide) rfl ((and_F00F_eq _ _).2 (by simp [encode, opField_wordXYN, nField_wordXYN]))

theorem shl (x : Reg) (y : Reg) : Statement (.shl x y) := fun _ =>
  of_row ⟨"SHL_Vx__Vy", 0xF00F, 0x800E⟩ (by decide) rfl ((and_F00F_eq _ _).2 (by simp [encode, opField_wordXYN, nField_wordXYN]))

theorem sneReg (x : Reg) (y : Reg) : Statement (.sneReg x y) := fun _ =>
  of_row ⟨"SNE_Vx__Vy", 0xF00F, 0x9000⟩ (by decide) rfl ((and_F00F_eq _ _).2 (by simp [encode, opField_wordXYN, nField_wordXYN]))

theorem ldI (nnn : BitVec 12) : Statement (.ldI nnn) := fun _ =>
  of_row ⟨"LD_I__nnn", 0xF000, 0xA000⟩ (by decide) rfl ((and_F000_eq _ _).2 (by simp [encode, opField_wordNNN, nnn.isLt]))

theorem jpV0 (nnn : BitVec 12) : Statement (.jpV0 nnn) := fun _ =>
  of_row ⟨"JP_V0__nnn", 0xF000, 0xB000⟩ (by decide) rfl ((and_F000_eq _ _).2 (by simp [encode, opField_wordNNN, nnn.isLt]))

theorem rnd (x : Reg) (nn : Byte) : Statement (.rnd x nn) := fun _ =>
  of_row ⟨"RND_Vx__nn", 0xF000, 0xC000⟩ (by decide) rfl ((and_F000_eq _ _).2 (by simp [encode, opField_wordXNN, x.isLt, nn.isLt]))

theorem drw (x : Reg) (y : Reg) (n : Nat) : Statement (.drw x y n) := fun h =>
  of_row ⟨"DRW_Vx__Vy__n", 0xF000, 0xD000⟩ (by decide) rfl ((and_F000_eq _ _).2 (by
    have hn : n ≤ 15 := by simpa [Instr.wellFormed] using h
    simp [encode, opField_wordXYN, Nat.lt_succ_of_le hn]))

theorem skp (x : Reg) : Statement (.skp x) := fun _ =>
  of_row ⟨"SKP_Vx", 0xF0FF, 0xE09E⟩ (by decide) rfl ((and_F0FF_eq _ _).2 (by simp [encode, opField_wordXNN, low8_wordXNN]))

theorem sknp (x : Reg) : Statement (.sknp x) := fun _ =>
  of_row ⟨"SKNP_Vx", 0xF0FF, 0xE0A1⟩ (by decide) rfl ((and_F0FF_eq _ _).2 (by simp [encode, opField_wordXNN, low8_wordXNN]))

theorem ldVxDT (x : Reg) : Statement (.ldVxDT x) := fun _ =>
  of_row ⟨"LD_Vx__DT", 0xF0FF, 0xF007⟩ (by decide) rfl ((and_F0FF_eq _ _).2 (by simp [encode, opField_wordXNN, low8_wordXNN]))

theorem ldVxK (x : Reg) : Statement (.ldVxK x) := fun _ =>
  of_row ⟨"LD_Vx__K", 0xF0FF, 0xF00A⟩ (by decide) rfl ((and_F0FF_eq _ _).2 (by simp [encode, opField_wordXNN, low8_wordXNN]))

theorem ldDTVx (x : Reg) : Statement (.ldDTVx x) := fun _ =>
  of_row ⟨"LD_DT__Vx", 0xF0FF, 0xF015⟩ (by decide) rfl ((and_F0FF_eq _ _).2 (by simp [encode, opField_wordXNN, low8_wordXNN]))

theorem ldSTVx (x : Reg) : Statement (.ldSTVx x) := fun _ =>
  of_row ⟨"LD_ST__Vx", 0xF0FF, 0xF018⟩ (by decide) rfl ((and_F0FF_eq _ _).2 (by simp [encode, opField_wordXNN, low8_wordXNN]))

theorem addI (x : Reg) : Statement (.addI x) := fun _ =>
  of_row ⟨"ADD_I__Vx", 0xF0FF, 0xF01E⟩ (by decide) rfl ((and_F0FF_eq _ _).2 (by simp [encode, opField_wordXNN, low8_wordXNN]))

theorem ldF (x : Reg) : Statement (.ldF x) := fun _ =>
  of_row ⟨"LD_F__Vx", 0xF0FF, 0xF029⟩ (by decide) rfl ((and_F0FF_eq _ _).2 (by simp [encode, opField_wordXNN, low8_wordXNN]))

theorem ldB (x : Reg) : Statement (.ldB x) := fun _ =>
  of_row ⟨"LD_B__Vx", 0xF0FF, 0xF033⟩ (by decide) rfl ((and_F0FF_eq _ _).2 (by simp [encode, opField_wordXNN, low8_wordXNN]))

theorem storeRegs (x : Reg) : Statement (.storeRegs x) := fun _ =>
  of_row ⟨"LD__I___Vx", 0xF0FF, 0xF055⟩ (by decide) rfl ((and_F0FF_eq _ _).2 (by simp [encode, opField_wordXNN, low8_wordXNN]))

theorem loadRegs (x : Reg) : Statement (.loadRegs x) := fun _ =>
  of_row ⟨"LD_Vx___I", 0xF0FF, 0xF065⟩ (by decide) rfl ((and_F0FF_eq _ _).2 (by simp [encode, opField_wordXNN, low8_wordXNN]))

end Sys2Proof.Laws.EncodingRow
end

