-- ==== Sys2Proof/Tests/Slice0.lean ====
section
/-! SUPPORT. The model's own tests. Every expected value is a vector of `95_test_vectors.md` or the example of the
instruction's rule; the comment names it. After them, a witness for the hypotheses of every obligation that has some. -/

open Sys2Proof Sys2Proof.Machine Sys2Proof.Claims

namespace Sys2Proof.Tests

/-- The answer is a next state that passes `p`. -/
def yields (o : Host.Outcome State Fault Refusal) (p : State → Bool) : Bool :=
  match o with
  | .next t => p t
  | _ => false

/-- One step with the word `w` placed at `pc`. -/
def ran (w : Word) (s : State) : Host.Outcome State Fault Refusal := step (s.placeNext w)

def regs (l : List (Reg × Byte)) (s : State) : State := l.foldl (fun t p => t.setReg p.1 p.2) s

def bytes (a : Nat) (l : List Byte) (s : State) : State := s.writeBytes a l

def lit (x y : Nat) (s : State) : State := { s with fb := flipPixel s.fb x y }

def schip (s : State) : State := { s with dialect := .schip }

def clean (s : State) : State := { s with dirty := false }

/-- The columns lit in row `y` of a 64-column screen. -/
def row (s : State) (y : Nat) : List Nat := (List.range 64).filter fun x => s.pixel x y

abbrev r0 : State := State.reset

/-! ### Well-formedness, decoding, reset -/

theorem test_wellFormed_refuses_sixteen_rows : (Instr.drw 0 0 16).wellFormed = false := by decide

theorem test_wellFormed_admits_fifteen_rows : (Instr.drw 0 0 15).wellFormed = true := by decide

-- T30.11: one word an instruction, x = A, y = B, nn = 12, nnn = ABC, n = 5
theorem test_decode_system : Decodes 0x00E0 .cls ∧ Decodes 0x00EE .ret ∧ Decodes 0x00FD .exit ∧ Decodes 0x00FE .low ∧
    Decodes 0x00FF .high := by unfold Decodes; decide

theorem test_decode_control : Decodes 0x1ABC (.jp 0xABC) ∧ Decodes 0x2ABC (.call 0xABC) ∧ Decodes 0x3A12 (.seImm 10 0x12) ∧
    Decodes 0x4A12 (.sneImm 10 0x12) ∧ Decodes 0x5AB0 (.seReg 10 11) ∧ Decodes 0x9AB0 (.sneReg 10 11) ∧
    Decodes 0xBABC (.jpV0 0xABC) := by unfold Decodes; decide

theorem test_decode_alu : Decodes 0x6A12 (.ldImm 10 0x12) ∧ Decodes 0x7A12 (.addImm 10 0x12) ∧
    Decodes 0x8AB0 (.ldReg 10 11) ∧ Decodes 0x8AB1 (.orReg 10 11) ∧ Decodes 0x8AB2 (.andReg 10 11) ∧
    Decodes 0x8AB3 (.xorReg 10 11) ∧ Decodes 0x8AB4 (.addReg 10 11) ∧ Decodes 0x8AB5 (.sub 10 11) ∧
    Decodes 0x8AB6 (.shr 10 11) ∧ Decodes 0x8AB7 (.subn 10 11) ∧ Decodes 0x8ABE (.shl 10 11) ∧
    Decodes 0xCA12 (.rnd 10 0x12) := by unfold Decodes; decide

theorem test_decode_rest : Decodes 0xAABC (.ldI 0xABC) ∧ Decodes 0xDAB5 (.drw 10 11 5) ∧ Decodes 0xEA9E (.skp 10) ∧
    Decodes 0xEAA1 (.sknp 10) ∧ Decodes 0xFA07 (.ldVxDT 10) ∧ Decodes 0xFA0A (.ldVxK 10) ∧ Decodes 0xFA15 (.ldDTVx 10) ∧
    Decodes 0xFA18 (.ldSTVx 10) ∧ Decodes 0xFA1E (.addI 10) ∧ Decodes 0xFA29 (.ldF 10) ∧ Decodes 0xFA33 (.ldB 10) ∧
    Decodes 0xFA55 (.storeRegs 10) ∧ Decodes 0xFA65 (.loadRegs 10) := by unfold Decodes; decide

-- T30.5 to T30.9
theorem test_decode_unknown : IsUnknown 0x0000 ∧ IsUnknown 0x00E1 ∧ IsUnknown 0x0123 ∧ IsUnknown 0x00FC ∧
    IsUnknown 0x00C4 ∧ IsUnknown 0x5121 ∧ IsUnknown 0x912F ∧ IsUnknown 0x8128 ∧ IsUnknown 0x812D ∧ IsUnknown 0x812F ∧
    IsUnknown 0xE19F ∧ IsUnknown 0xE100 ∧ IsUnknown 0xF1FF ∧ IsUnknown 0xF130 ∧ IsUnknown 0xF175 ∧ IsUnknown 0xF185 ∧
    IsUnknown 0xF100 := by unfold IsUnknown; decide

theorem test_decode_bytes_big_endian : decode [0xA2, 0x2A, 0x55] = .ok (.ldI 0x22A, [0x55]) := by decide

theorem test_decode_truncated : decode [0xA2] = .error .truncated := by decide

theorem test_decodeTableWord : decodeTableWord 16 0xDAB5 = some (.drw 10 11 5) ∧ decodeTableWord 16 0x8128 = none := by
  decide

-- `10_state.md` R47, T70.1 with an empty ROM
theorem test_reset_memory : r0.readByte 0 = 0xF0 ∧ r0.readByte 4 = 0xF0 ∧ r0.readByte 5 = 0x20 ∧ r0.readByte 0x4F = 0x80 ∧
    r0.readByte 0x50 = 0 ∧ r0.readByte 0x200 = 0 ∧ r0.readByte 4095 = 0 := by decide

theorem test_reset_memory_is_canonical : Memory.wf (background r0.params) r0.mem = true := by decide

-- T70.1
theorem test_reset_event : yields (hostEvent (.reset [0xA2, 0x2A])
    { r0 with status := .faulted, sp := 16, dialect := .schip, hires := true, dt := 50, mem := [(0x300, 1)] })
    (fun t => t == { r0 with mem := [(0x200, 0xA2), (0x201, 0x2A)] }) = true := by decide

/-! ### The slot -/

-- S6
theorem test_fetch_is_big_endian : yields (step (bytes 0x200 [0xA2, 0x2A] r0)) (fun t => t.i == 0x22A && t.pc == 0x202) =
    true := by decide

-- T30.2
theorem test_odd_pc : yields (step { bytes 0x201 [0x00, 0xE0] r0 with pc := 0x201 }) (fun t => t.pc == 0x203) = true := by
  decide

-- T30.4
theorem test_fetch_fault : yields (step { r0 with pc := 0xFFF }) (fun t =>
    t == { r0 with pc := 0xFFF, status := .faulted, faultCode := 1, faultPc := 0xFFF, faultAddr := 0x1000 }) = true := by
  decide

-- T30.5
theorem test_unknown_continues : yields (step { r0 with pc := 0x300 }) (fun t =>
    t == { r0 with pc := 0x302, unkFlag := true, unkOpcode := 0, unkPc := 0x300 }) = true := by decide

-- T30.10
theorem test_unknown_halts : yields (ran 0x8128 { r0 with params := { r0.params with unknownPolicy := .halt } }) (fun t =>
    t.unkFlag && t.unkOpcode == 0x8128 && t.unkPc == 0x200 && t.faultCode == 4 && t.faultPc == 0x200 &&
    t.faultOpcode == 0x8128 && t.pc == 0x202 && t.status == .faulted) = true := by decide

-- T30.12
theorem test_power_off : yields (step { r0 with pc := 0xFFF, inputs := { r0.inputs with powerOffReq := true } })
    (fun t => t.status == .halted && t.pc == 0xFFF && t.faultCode == 0) = true := by decide

-- T30.13
theorem test_halted_slot : yields (step { r0 with status := .halted }) (fun t => t == { r0 with status := .halted }) = true
  := by decide

/-! ### Machine control -/

-- T40.1
theorem test_cls : yields (ran 0x00E0 (regs [(VF, 7)] (clean (lit 10 3 r0)))) (fun t =>
    t.fb == r0.fb && t.dirty && t.reg VF == 7) = true := by decide

-- T40.3
theorem test_exit : yields (ran 0x00FD r0) (fun t => t.status == .halted && t.pc == 0x202 && t.dialect == .chip8) = true :=
  by decide

-- T40.6
theorem test_low : yields (ran 0x00FE (clean (lit 100 40 { schip r0 with hires := true }))) (fun t =>
    !t.hires && t.dialect == .schip && t.fb == r0.fb && t.dirty) = true := by decide

-- T40.5
theorem test_high : yields (ran 0x00FF r0) (fun t =>
    t.dialect == .schip && t.portFbWidth == 128 && t.portFbHeight == 64 && t.fb == r0.fb && t.dirty) = true := by decide

/-! ### Control transfer -/

-- T41.2
theorem test_ret : yields (ran 0x00EE { r0 with sp := 2, stack := (r0.stack.set 0 0x204).set 1 0x300 }) (fun t =>
    t.pc == 0x300 && t.sp == 1) = true := by decide

-- T41.1
theorem test_ret_empty : yields (ran 0x00EE r0) (fun t =>
    t.faultCode == 3 && t.faultPc == 0x200 && t.faultOpcode == 0x00EE && t.faultAddr == 0 && t.pc == 0x202 && t.sp == 0 &&
    t.status == .faulted) = true := by decide

-- T41.3
theorem test_jp : yields (ran 0x1FFF r0) (fun t => t.pc == 0xFFF) = true := by decide

-- T41.5
theorem test_call : yields (ran 0x2300 { r0 with pc := 0x250, sp := 15 }) (fun t =>
    t.stack[15] == 0x252 && t.sp == 16 && t.pc == 0x300) = true := by decide

-- T41.6
theorem test_call_full : yields (ran 0x2300 { r0 with pc := 0x250, sp := 16 }) (fun t =>
    t.faultCode == 2 && t.faultPc == 0x250 && t.faultOpcode == 0x2300 && t.pc == 0x252 && t.sp == 16 &&
    t.stack == r0.stack) = true := by decide

-- T41.7
theorem test_jpV0_sum_is_whole : yields (ran 0xBFFF (regs [(0, 0xFF)] r0)) (fun t => t.pc == 0x10FE) = true := by decide

-- T41.8, T41.9
theorem test_jpV0_dialects :
    yields (ran 0xB2A0 (regs [(0, 1), (2, 0x10)] r0)) (fun t => t.pc == 0x2A1) = true ∧
    yields (ran 0xB2A0 (regs [(0, 1), (2, 0x10)] (schip r0))) (fun t => t.pc == 0x2B0) = true := by decide

-- T41.10, T41.11
theorem test_seImm : yields (ran 0x3342 (regs [(3, 0x42)] r0)) (fun t => t.pc == 0x204) = true ∧
    yields (ran 0x3343 (regs [(3, 0x42)] r0)) (fun t => t.pc == 0x202) = true := by decide

-- T41.12, T41.13
theorem test_sneImm : yields (ran 0x4342 (regs [(3, 0x42)] r0)) (fun t => t.pc == 0x202) = true ∧
    yields (ran 0x4343 (regs [(3, 0x42)] r0)) (fun t => t.pc == 0x204) = true := by decide

-- T41.14, T41.16
theorem test_seReg : yields (ran 0x5330 r0) (fun t => t.pc == 0x204) = true ∧
    yields (ran 0x5120 (regs [(2, 0xFF)] r0)) (fun t => t.pc == 0x202) = true := by decide

-- T41.15, T41.16
theorem test_sneReg : yields (ran 0x9330 r0) (fun t => t.pc == 0x202) = true ∧
    yields (ran 0x9120 (regs [(2, 0xFF)] r0)) (fun t => t.pc == 0x204) = true := by decide

/-! ### ALU -/

-- T42.19, T42.2
theorem test_ldImm_addImm_reach_VF : yields (ran 0x6FAB r0) (fun t => t.reg VF == 0xAB) = true ∧
    yields (ran 0x7F01 (regs [(VF, 0xFF)] r0)) (fun t => t.reg VF == 0) = true := by decide

-- T42.1
theorem test_addImm_no_flag : yields (ran 0x7001 (regs [(0, 0xFF), (VF, 9)] r0)) (fun t => t.reg 0 == 0 && t.reg VF == 9) =
    true := by decide

-- T42.15
theorem test_ldReg : yields (ran 0x8120 (regs [(2, 0x3C), (VF, 4)] r0)) (fun t => t.reg 1 == 0x3C && t.reg VF == 4) = true :=
  by decide

-- T42 logic line: V1 = 3C, V2 = 0F, VF = 1
theorem test_logic_chip8 : (let s := regs [(1, 0x3C), (2, 0x0F), (VF, 1)] r0
    yields (ran 0x8121 s) (fun t => t.reg 1 == 0x3F && t.reg VF == 0) &&
    yields (ran 0x8122 s) (fun t => t.reg 1 == 0x0C && t.reg VF == 0) &&
    yields (ran 0x8123 s) (fun t => t.reg 1 == 0x33 && t.reg VF == 0)) = true := by decide

-- T42 logic line in SCHIP, T42.12
theorem test_logic_schip : (let s := schip (regs [(1, 0x3C), (2, 0x0F), (VF, 1)] r0)
    yields (ran 0x8121 s) (fun t => t.reg 1 == 0x3F && t.reg VF == 1) &&
    yields (ran 0x8122 s) (fun t => t.reg 1 == 0x0C && t.reg VF == 1) &&
    yields (ran 0x8123 s) (fun t => t.reg 1 == 0x33 && t.reg VF == 1)) = true ∧
    yields (ran 0x8F11 (schip (regs [(VF, 0xAA), (1, 0x55)] r0))) (fun t => t.reg VF == 0xFF) = true := by decide

-- T42 table 8124, T42.3
theorem test_addReg : yields (ran 0x8124 (regs [(1, 0xC8), (2, 0x64)] r0)) (fun t => t.reg 1 == 0x2C && t.reg VF == 1) = true ∧
    yields (ran 0x8124 (regs [(1, 0x80), (2, 0x7F), (VF, 1)] r0)) (fun t => t.reg 1 == 0xFF && t.reg VF == 0) = true := by
  decide

theorem test_addReg_flag_last : yields (ran 0x8F14 (regs [(VF, 0xFF), (1, 1)] r0)) (fun t => t.reg VF == 1) = true := by
  decide

-- T42 table 8125
theorem test_sub : yields (ran 0x8125 (regs [(1, 5), (2, 7), (VF, 1)] r0)) (fun t => t.reg 1 == 0xFE && t.reg VF == 0) = true ∧
    yields (ran 0x8125 (regs [(1, 7), (2, 7)] r0)) (fun t => t.reg 1 == 0 && t.reg VF == 1) = true := by decide

-- T42 table 8127
theorem test_subn : yields (ran 0x8127 (regs [(1, 5), (2, 7)] r0)) (fun t => t.reg 1 == 2 && t.reg VF == 1) = true ∧
    yields (ran 0x8127 (regs [(1, 7), (2, 5), (VF, 1)] r0)) (fun t => t.reg 1 == 0xFE && t.reg VF == 0) = true := by decide

-- T42.20, T42.21
theorem test_shr : yields (ran 0x8126 (regs [(1, 5), (2, 0xA), (VF, 1)] r0)) (fun t => t.reg 1 == 5 && t.reg VF == 0) = true ∧
    yields (ran 0x8126 (schip (regs [(1, 5), (2, 0xA)] r0))) (fun t => t.reg 1 == 2 && t.reg VF == 1) = true := by decide

-- `42_alu.md` R140, its example
theorem test_shl : yields (ran 0x812E (regs [(1, 0x81), (2, 0x40), (VF, 1)] r0)) (fun t =>
      t.reg 1 == 0x80 && t.reg VF == 0) = true ∧
    yields (ran 0x812E (schip (regs [(1, 0x81), (2, 0x40)] r0))) (fun t => t.reg 1 == 2 && t.reg VF == 1) = true := by decide

-- T42.18
theorem test_rnd : yields (ran 0xC10F { r0 with inputs := { r0.inputs with rngByte := some 0xA7 } })
    (fun t => t.reg 1 == 7) = true := by decide

/-! ### Index register and memory -/

-- T43.1
theorem test_ldI : yields (ran 0xAFFF r0) (fun t => t.i == 0xFFF) = true := by decide

-- T43.2
theorem test_addI : yields (ran 0xF11E (regs [(1, 1), (VF, 5)] { r0 with i := 0xFFF })) (fun t =>
    t.i == 0 && t.reg VF == 5) = true := by decide

-- T43.5, `43_index_memory.md` R152
theorem test_ldF : yields (ran 0xF029 (regs [(0, 0x1A)] r0)) (fun t => t.i == 0x32) = true ∧
    yields (ran 0xF029 (regs [(0, 0x0A)] { r0 with params := { r0.params with fontBase := .at050 } }))
      (fun t => t.i == 0x82) = true := by decide

-- T43.7
theorem test_ldB : yields (ran 0xF033 (regs [(0, 123)] { r0 with i := 0xFFD })) (fun t =>
    t.readByte 0xFFD == 1 && t.readByte 0xFFE == 2 && t.readByte 0xFFF == 3 && t.i == 0xFFD) = true := by decide

-- T43.8
theorem test_ldB_faults : yields (ran 0xF033 (regs [(0, 123)] { r0 with i := 0xFFE })) (fun t =>
    t.faultCode == 1 && t.faultAddr == 0x1000 && t.faultOpcode == 0xF033 && t.faultPc == 0x200 && t.pc == 0x202 &&
    t.readByte 0xFFE == 0 && t.readByte 0xFFF == 0) = true := by decide

-- R155, its example, in both dialects
theorem test_storeRegs : (let s := regs [(0, 1), (1, 2), (2, 3)] { r0 with i := 0x400 }
    yields (ran 0xF255 s) (fun t => t.readByte 0x400 == 1 && t.readByte 0x401 == 2 && t.readByte 0x402 == 3 &&
      t.readByte 0x403 == 0 && t.i == 0x403) &&
    yields (ran 0xF255 (schip s)) (fun t => t.readByte 0x402 == 3 && t.i == 0x400)) = true := by decide

-- T43.12
theorem test_storeRegs_faults : yields (ran 0xFF55 (regs [(0, 1)] { r0 with i := 0xFF1 })) (fun t =>
    t.faultCode == 1 && t.faultAddr == 0x1000 && t.i == 0xFF1 && t.readByte 0xFF1 == 0) = true := by decide

-- R156, its example
theorem test_loadRegs : yields (ran 0xF165 (bytes 0x300 [0xAA, 0xBB, 0xCC] { r0 with i := 0x300 })) (fun t =>
    t.reg 0 == 0xAA && t.reg 1 == 0xBB && t.reg 2 == 0 && t.i == 0x302) = true := by decide

-- T43.16
theorem test_loadRegs_faults : yields (ran 0xF165 (bytes 0xFFF [0x77] { r0 with i := 0xFFF })) (fun t =>
    t.faultCode == 1 && t.faultAddr == 0x1000 && t.reg 0 == 0 && t.reg 1 == 0) = true := by decide

/-! ### Draw -/

-- T44.4 and T44.5: the same sprite wraps in CHIP8 and is clipped in SCHIP
theorem test_drw_edges : (let s := regs [(0, 62), (1, 31)] (bytes 0x300 [0xFF, 0x81] { r0 with i := 0x300 })
    yields (ran 0xD012 s) (fun t => row t 31 == [0, 1, 2, 3, 4, 5, 62, 63] && row t 0 == [5, 62] && t.reg VF == 0) &&
    yields (ran 0xD012 (schip s)) (fun t => row t 31 == [62, 63] && row t 0 == [] && t.dirty)) = true := by decide

-- T44.9 and T44.14: a collision; a shut gate holds before the range is looked at
theorem test_drw_collision_and_hold :
    yields (ran 0xD011 (clean (lit 0 0 (bytes 0x300 [0xC0] { r0 with i := 0x300 })))) (fun t =>
      row t 0 == [1] && t.reg VF == 1 && t.dirty && !t.gateOpen) = true ∧
    yields (ran 0xD012 { r0 with i := 0xFFF, gateOpen := false }) (fun t => t.pc == 0x200 && t.status == .running) = true := by
  decide

/-! ### Keys and timers -/

def pressed (k : Nat) (s : State) : State := { s with inputs := { s.inputs with keysDown := 1#16 <<< k } }

def released (keys : BitVec 16) (s : State) : State := { s with inputs := { s.inputs with keysReleased := keys } }

-- T45.5, T45.2
theorem test_skp : yields (ran 0xE19E (pressed 5 (regs [(1, 0x15)] r0))) (fun t => t.pc == 0x204) = true ∧
    yields (ran 0xE19E (pressed 4 (regs [(1, 5)] r0))) (fun t => t.pc == 0x202) = true := by decide

-- T45.3, T45.4
theorem test_sknp : yields (ran 0xE1A1 (pressed 5 (regs [(1, 5)] r0))) (fun t => t.pc == 0x202) = true ∧
    yields (ran 0xE1A1 (regs [(1, 5)] r0)) (fun t => t.pc == 0x204) = true := by decide

-- T45.6, T45.7
theorem test_ldVxK : yields (ran 0xF30A (pressed 3 r0)) (fun t => t.pc == 0x200 && t.reg 3 == 0) = true ∧
    yields (ran 0xF30A (released 0x0280 r0)) (fun t => t.pc == 0x202 && t.reg 3 == 7) = true := by decide

-- T45.9, T45.10
theorem test_delay : yields (ran 0xF207 { r0 with dt := 0x3C, st := 9 }) (fun t => t.reg 2 == 0x3C) = true ∧
    yields (ran 0xF215 (regs [(2, 0xFF)] r0)) (fun t => t.dt == 0xFF && t.st == 0) = true := by decide

-- T45.11, T45.12
theorem test_sound : yields (ran 0xF218 (regs [(2, 2)] r0)) (fun t => t.st == 2 && t.portSoundOn && t.dt == 0) = true ∧
    yields (ran 0xF218 { r0 with st := 9 }) (fun t => t.st == 0 && !t.portSoundOn) = true := by decide

-- T60.3, T60.5
theorem test_timerTick : yields (hostEvent .timerTick { r0 with dt := 255, st := 1 }) (fun t =>
      t.dt == 254 && t.st == 0 && !t.portSoundOn) = true ∧
    yields (hostEvent .timerTick { r0 with dt := 5, st := 5, status := .halted }) (fun t => t.dt == 4 && t.st == 4) = true := by
  decide

-- `44_draw.md` R171, `10_state.md` R37, R44
theorem test_other_events : yields (hostEvent .gateOpen { r0 with gateOpen := false }) (fun t => t == r0) = true ∧
    yields (hostEvent .dirtyAck r0) (fun t => t == clean r0) = true ∧
    yields (hostEvent (.inputChange (pressed 5 r0).inputs) r0) (fun t => t == pressed 5 r0) = true := by decide

/-! ### Witnesses: each obligation with hypotheses has states and operands that meet them, at the boundaries -/

/-- A core at `pc` with the two bytes of `w` there. -/
def before (w : Word) (s : State) : State := s.placeWord s.pc.toNat w

theorem witness_EncodedInstructionsDecodeBack : (Instr.drw 15 15 15).wellFormed = true := by decide

theorem witness_DecodedWordsEncodeBack : decodeWord 0xFF65 = .ok (.loadRegs 15) := by decide

theorem witness_DecoderAgreesWithOpcodeMap :
    (∃ r ∈ opcodeRows, r.covers 0x8ABE = true) ∧ decodeWord 0x8ABE = .ok (.shl 10 11) ∧
    ∀ r ∈ opcodeRows, r.covers 0x8128 = false := by decide

theorem witness_StepAdvancesPcThenRunsDecodedWord :
    ∃ s : State, s.nextEvent.1 = .slot ∧ s.status = .running ∧ s.inputs.powerOffReq = false ∧ s.pc.toNat = 4094 ∧
      (0xDAB5 : Word).toNat = 0x100 * (s.readByte s.pc.toNat).toNat + (s.readByte (s.pc.toNat + 1)).toNat ∧
      decodeWord 0xDAB5 = .ok (.drw 10 11 5) :=
  ⟨before 0xDAB5 { r0 with pc := 4094 }, by decide⟩

theorem witness_StepAdvancesPc_unknown :
    r0.nextEvent.1 = .slot ∧ r0.pc.toNat ≤ 4094 ∧
      (0 : Word).toNat = 0x100 * (r0.readByte r0.pc.toNat).toNat + (r0.readByte (r0.pc.toNat + 1)).toNat ∧
      decodeWord 0 = .error (.unknownOpcode 0) := by decide

theorem witness_StepTakesTheNextScheduledEvent :
    ({ r0 with schedule := [.timerTick, .slot] } : State).schedule = .timerTick :: [.slot] ∧
    (r0.schedule = [] ∧ r0.beyond = .slots) ∧
    (({ r0 with beyond := .free 3 } : State).schedule = [] ∧ ({ r0 with beyond := .free 3 } : State).beyond = .free 3) := by
  decide

theorem witness_SlotTestsStatusThenPowerOff :
    ({ r0 with status := .halted } : State).status ≠ .running ∧
    r0.status = .running ∧ ({ r0.inputs with powerOffReq := true } : Config.Inputs).powerOffReq = true := by decide

theorem witness_FetchFaultsAtEndOfMemory :
    r0.status = .running ∧ r0.inputs.powerOffReq = false ∧ 4095 ≤ ({ r0 with pc := 4095 } : State).pc.toNat ∧
    ({ r0 with pc := 4094 } : State).pc.toNat ≤ 4094 := by decide

theorem witness_UnknownOpcodeIsReported :
    r0.params.unknownPolicy = .reportAndContinue ∧
    ({ r0.params with unknownPolicy := .halt } : Config.Params).unknownPolicy = .halt := by decide

theorem witness_HeldSlotChangesNothing_key : ∃ s : State, s.status = .running ∧ s.inputs.powerOffReq = false ∧
    s.pc.toNat ≤ 4094 ∧
    decodeWord (wordOfBytes (s.readByte s.pc.toNat) (s.readByte (s.pc.toNat + 1))) = .ok (.ldVxK 15) ∧
    s.inputs.keysReleased = 0 :=
  ⟨before 0xFF0A { r0 with pc := 4094 }, by decide⟩

theorem witness_HeldSlotChangesNothing_draw : ∃ s : State, s.status = .running ∧ s.inputs.powerOffReq = false ∧
    s.pc.toNat ≤ 4094 ∧
    decodeWord (wordOfBytes (s.readByte s.pc.toNat) (s.readByte (s.pc.toNat + 1))) = .ok (.drw 1 2 3) ∧
    s.gateOpen = false :=
  ⟨before 0xD123 { r0 with gateOpen := false }, by decide⟩

theorem witness_RetPopsTheTopEntry : 0 < ({ r0 with sp := 16 } : State).sp.val ∧ r0.sp.val = 0 := by decide

theorem witness_CallPushesTheReturnAddress :
    ({ r0 with sp := 15 } : State).sp.val < 16 ∧ ({ r0 with sp := 16 } : State).sp.val = 16 := by decide

theorem witness_JpV0AddsTheDialectsRegister : (0xFFF : BitVec 12).toNat / 0x100 = (15 : Reg).val ∧
    r0.dialect = .chip8 ∧ (schip r0).dialect = .schip := by decide

theorem witness_ImmediateSkipsCompareTheRegister :
    (r0.reg 15).toNat = (0 : Byte).toNat ∧ (r0.reg 15).toNat ≠ (0xFF : Byte).toNat := by decide

theorem witness_RegisterSkipsCompareTwoRegisters :
    (r0.reg 1).toNat = (r0.reg 2).toNat ∧ ((regs [(2, 0xFF)] r0).reg 1).toNat ≠ ((regs [(2, 0xFF)] r0).reg 2).toNat ∧
    1 ≤ 15 ∧ 15 ≤ 15 := by decide

theorem witness_SixteenPushesSucceedAndNoMore :
    r0.sp.val = 0 ∧ (List.replicate 16 (0x202 : Word)).length ≤ 16 ∧ 16 < (List.replicate 17 (0x202 : Word)).length := by
  decide

theorem witness_LogicClearsFlagInChip8Only :
    (Instr.orReg 1 2 = .orReg 1 2 ∧ or = or) ∧ (Instr.andReg 1 2 = .andReg 1 2 ∧ and = and) ∧
    (Instr.xorReg 15 2 = .xorReg 15 2 ∧ xor = xor) ∧ r0.dialect = .chip8 ∧ (schip r0).dialect = .schip :=
  ⟨⟨rfl, rfl⟩, ⟨rfl, rfl⟩, ⟨rfl, rfl⟩, rfl, rfl⟩

theorem witness_AddRegistersSetsCarry : (let s := regs [(1, 0xFF), (2, 1), (3, 0)] r0
    (s.reg 1).toNat + (s.reg 2).toNat > 255 ∧ (s.reg 1).toNat + (s.reg 3).toNat ≤ 255) ∧ (1 : Reg) ≠ VF := by decide

theorem witness_SubtractsSetNotBorrow : (let s := regs [(1, 6), (2, 7), (3, 7)] r0
    (s.reg 1).toNat < (s.reg 2).toNat ∧ (s.reg 2).toNat ≤ (s.reg 3).toNat) ∧ (1 : Reg) ≠ VF := by decide

theorem witness_ShiftsTakeTheDialectsSource :
    (r0.dialect = .chip8 ∧ 0xFF = ((regs [(2, 0xFF)] r0).reg 2).toNat) ∧
    ((schip r0).dialect = .schip ∧ 0x80 = ((regs [(1, 0x80)] r0).reg 1).toNat) := by decide

theorem witness_RandomByteIsMasked :
    (∃ s : State, s.inputs.rngByte = some 0xFF) ∧ r0.inputs.rngByte = none ∧ (0x0F : Byte).getLsbD 7 = false :=
  ⟨⟨{ r0 with inputs := { r0.inputs with rngByte := some 0xFF } }, rfl⟩, rfl, rfl⟩

theorem witness_FontAddressOfTheLowDigit :
    r0.params.fontBase = .at000 ∧ ({ r0.params with fontBase := .at050 } : Config.Params).fontBase = .at050 := by decide

theorem witness_BcdStoresThreeDigits : (let s : State := bytes 0xFFE [7] { r0 with i := 0xFFD }
    Memory.wf (background s.params) s.mem = true ∧ s.effAddr 2 = 4095) := by decide

theorem witness_StoreRegistersWritesTheBlock : (let s : State := bytes 0xFF5 [7] { r0 with i := 0xFF0 }
    Memory.wf (background s.params) s.mem = true ∧ s.effAddr (15 : Reg).val = 4095 ∧ s.dialect = .chip8 ∧
    (schip s).dialect = .schip) := by decide

theorem witness_LoadRegistersReadsTheBlock : (let s : State := { r0 with i := 0xFFF }
    s.effAddr (0 : Reg).val = 4095 ∧ s.dialect = .chip8 ∧ (schip s).dialect = .schip) := by decide

theorem witness_ExecuteFaultsFillTheRecord :
    r0.sp.val = 0 ∧ ({ r0 with sp := 16 } : State).sp.val = 16 ∧
    (let s : State := { r0 with i := 0xFFE };
      4095 < 4096 ∧ 4096 = s.i.toNat + 2 ∧ 4096 = s.i.toNat + (2 : Reg).val ∧ s.gateOpen = true ∧
      4096 = s.i.toNat + 3 - 1 ∧ 4095 < s.i.toNat + 15 - 1) := by decide

theorem witness_EqualReadsMeanEqualMemory :
    Memory.wf (background r0.params) [(0x300, 1), (4095, 2)] = true ∧
    ∀ a, Memory.read (background r0.params) [(0x300, 1), (4095, 2)] a =
      Memory.read (background r0.params) [(0x300, 1), (4095, 2)] a :=
  ⟨by decide, fun _ => rfl⟩

/-- A sprite of one lit bit at the right edge, over a lit pixel. -/
def edge : State := lit 63 0 (bytes 0x300 [0x80] (regs [(0, 63)] { r0 with i := 0x300 }))

theorem covers_edge : covers edge 0 1 1 63 0 :=
  ⟨by decide, by decide, 0, 0, by decide, by decide, by decide, Or.inl ⟨Or.inr (by decide), by decide, by decide⟩⟩

theorem witness_DrawInvertsTheCoveredPixels :
    edge.gateOpen = true ∧ edge.i.toNat + 1 ≤ 4096 ∧ covers edge 0 1 1 63 0 ∧ edge.pixel 63 0 = true ∧
    ¬covers edge 0 1 1 64 0 ∧
    (({ r0 with i := 4081 } : State).i.toNat + 15 = 4096) ∧ ({ r0 with i := 0xFFF } : State).gateOpen = true :=
  ⟨by decide, by decide, covers_edge, by decide, fun h => absurd h.1 (by decide), by decide, by decide⟩

/-- Two lit bits at the right edge in the SCHIP dialect: the second is clipped. -/
def clipped : State := schip (bytes 0x300 [0xC0] (regs [(0, 63)] { r0 with i := 0x300 }))

theorem clipped_does_not_wrap : ¬wrapsAtEdge clipped := by unfold wrapsAtEdge; decide

theorem witness_DrawInvertsTheCoveredPixels_clip :
    clipped.gateOpen = true ∧ clipped.i.toNat + 1 ≤ 4096 ∧ covers clipped 0 1 1 63 0 ∧ ¬covers clipped 0 1 1 0 0 :=
  ⟨by decide, by decide,
    ⟨by decide, by decide, 0, 0, by decide, by decide, by decide,
      Or.inr ⟨clipped_does_not_wrap, by decide, by decide⟩⟩,
    fun ⟨_, _, _, col, _, _, _, h⟩ => h.elim (fun h => clipped_does_not_wrap h.1) fun h => by
      have hx : 0 = (clipped.reg 0).toNat % clipped.width + col := h.2.1
      have he : (clipped.reg 0).toNat % clipped.width = 63 := by decide
      omega⟩

/-- No sprite bit is 1, so no pixel is covered. -/
theorem witness_DrawInvertsTheCoveredPixels_none : ¬∃ px py, covers r0 0 1 0 px py ∧ r0.pixel px py = true :=
  fun ⟨_, _, ⟨_, _, _, _, h, _⟩, _⟩ => absurd h (Nat.not_lt_zero _)

theorem witness_DrawingTwiceRestoresTheScreen :
    (let s : State := bytes 0x300 [0x80] { r0 with i := 0x300 }
     s.gateOpen = true ∧ s.i.toNat + 1 ≤ 4096 ∧ covers s 0 15 1 0 0 ∧ s.pixel 0 0 = false ∧
     exec (.drw 0 15 1) s = .next (s.drawSprite 0 15 1) ∧
     (let u := (gateOpenEvent (s.drawSprite 0 15 1)).setReg VF 0; u.reg 0 = s.reg 0 ∧ u.reg 15 = s.reg 15)) ∧
    ∀ px py, r0.pixel px py = false :=
  ⟨⟨by decide, by decide,
    ⟨by decide, by decide, 0, 0, by decide, by decide, by decide, Or.inl ⟨Or.inr (by decide), by decide, by decide⟩⟩,
    by decide, by rfl, by decide, by decide⟩, pixelOf_blank⟩

theorem witness_KeySkipsTestTheHeldKey : (let s := pressed 15 (regs [(1, 0xFF)] r0)
    15 = (s.reg 1).toNat % 16 ∧ s.inputs.keysDown.getLsbD 15 = true ∧ r0.inputs.keysDown.getLsbD 15 = false) := by decide

theorem witness_KeyWaitTakesTheSmallestReleasedKey :
    (15 < 16 ∧ (released 0x8000 r0).inputs.keysReleased.getLsbD 15 = true ∧
      ∀ j < 15, (released 0x8000 r0).inputs.keysReleased.getLsbD j = false) ∧
    ∀ k < 16, r0.inputs.keysReleased.getLsbD k = false := by decide

theorem witness_TimerTickDecrementsTowardZero :
    0 < ({ r0 with dt := 1, st := 255 } : State).dt.toNat ∧ 0 < ({ r0 with dt := 1, st := 255 } : State).st.toNat ∧
    r0.dt.toNat = 0 ∧ r0.st.toNat = 0 := by decide

/-- The instruction answers a next state that differs as `p` says. -/
theorem differs {i : Instr} {s : State} {p : State → Bool} (h : yields (exec i s) p = true) :
    ∃ t, exec i s = .next t ∧ p t = true := by
  revert h
  unfold yields
  cases exec i s with
  | next t => exact fun h => ⟨t, rfl, h⟩
  | fault _ => exact fun h => Bool.noConfusion h
  | refused _ => exact fun h => Bool.noConfusion h

theorem witness_StoreThenLoadRestoresRegisters : ∃ s t u : State, Memory.wf (background s.params) s.mem = true ∧
    s.effAddr (15 : Reg).val = 4095 ∧ exec (.storeRegs 15) s = .next t ∧ u.mem = t.mem ∧ u.params = t.params ∧ u.i = s.i :=
  let ⟨t, ht, _⟩ := differs (i := .storeRegs 15) (s := { r0 with i := 0xFF0 }) (p := fun _ => true) (by decide)
  ⟨_, t, { t with i := 0xFF0 }, by decide, by decide, ht, rfl, rfl, rfl⟩

theorem witness_RegistersChangeOnlyAsListed :
    (∃ t, exec (.ldImm 3 5) r0 = .next t ∧ (t.reg 3 != r0.reg 3) = true) ∧
    (∃ t, exec (.sub 1 2) r0 = .next t ∧ (t.reg VF != r0.reg VF) = true) :=
  ⟨differs (by decide), differs (by decide)⟩

theorem witness_PcChangesOnlyAsListed :
    (∃ t, exec (.seReg 0 0) r0 = .next t ∧ (t.pc == r0.pc + 2) = true) ∧
    (∃ t, exec (.ldVxK 0) r0 = .next t ∧ (t.pc == r0.pc - 2) = true) :=
  ⟨differs (by decide), differs (by decide)⟩

theorem witness_IndexChangesOnlyAsListed :
    (∃ t, exec (.ldI 0xFFF) r0 = .next t ∧ (t.i != r0.i) = true) ∧
    (∃ t, exec (.storeRegs 0) r0 = .next t ∧ (t.i != r0.i) = true) :=
  ⟨differs (by decide), differs (by decide)⟩

theorem witness_MemoryChangesOnlyInTheStoredBlock : (let s := regs [(0, 123)] { r0 with i := 0xFFD }
    (∃ t, exec (.ldB 0) s = .next t ∧ (t.readByte 0xFFF != s.readByte 0xFFF) = true) ∧
    (∃ t, exec (.storeRegs 0) s = .next t ∧ (t.readByte 0xFFD != s.readByte 0xFFD) = true)) :=
  ⟨differs (by decide), differs (by decide)⟩

theorem witness_ScreenChangesAreMarkedDirty : (let s := clean edge
    (∃ t, exec .cls s = .next t ∧ (t.pixel 63 0 != s.pixel 63 0) = true) ∧
    (∃ t, exec (.drw 0 1 1) s = .next t ∧ (t.pixel 63 0 != s.pixel 63 0) = true) ∧ edge.dirty = true) :=
  ⟨differs (by decide), differs (by decide), by decide⟩

theorem witness_ControlStateChangesOnlyAsListed : (let s := regs [(1, 9)] r0
    (∃ t, exec (.call 0x300) s = .next t ∧ (t.sp != s.sp) = true) ∧
    (∃ t, exec (.ldDTVx 1) s = .next t ∧ (t.dt != s.dt) = true) ∧
    (∃ t, exec (.ldSTVx 1) s = .next t ∧ (t.st != s.st) = true) ∧
    (∃ t, exec .high s = .next t ∧ (t.hires != s.hires) = true) ∧
    (∃ t, exec (.drw 0 0 0) s = .next t ∧ (t.gateOpen != s.gateOpen) = true)) :=
  ⟨differs (by decide), differs (by decide), differs (by decide), differs (by decide), differs (by decide)⟩

theorem witness_HostStateIsNotWrittenByInstructions :
    (∃ t, exec .exit r0 = .next t ∧ (t.status == .halted) = true) ∧
    (∃ t, exec .ret r0 = .next t ∧ (t.status == .faulted) = true) :=
  ⟨differs (by decide), differs (by decide)⟩

theorem witness_DialectReachesOnlyListedInstructions :
    (∃ t, exec (.addReg 1 2) r0 = .next t) ∧ ¬usesDialect (.addReg 1 2) r0 :=
  ⟨⟨_, rfl⟩, fun h => h⟩

theorem witness_DialectReaches_draw : (let s : State := { r0 with params := { r0.params with edgePolicy := .alwaysWrap } }
    (∃ t, exec (.drw 1 2 3) s = .next t) ∧ ¬usesDialect (.drw 1 2 3) s) :=
  ⟨⟨_, rfl⟩, fun h => Config.EdgePolicy.noConfusion h⟩

theorem witness_InputsReachOnlySamplingInstructions : (∃ t, exec (.ldVxDT 1) r0 = .next t) ∧ ¬samplesInput (.ldVxDT 1) :=
  ⟨⟨_, rfl⟩, fun h => h⟩

/-- The three ways a slot faults: in the fetch, in execute, and on an unknown opcode under `Halt`. -/
theorem witness_FaultsArePrecise :
    (yields (slot { r0 with pc := 4095 }) fun t => t.status == .faulted) = true ∧
    (yields (slot (before 0x00EE { r0 with pc := 4094 })) fun t => t.status == .faulted) = true ∧
    (yields (slot { r0 with params := { r0.params with unknownPolicy := .halt } }) fun t => t.faultCode == 4) = true ∧
    r0.status = .running := by decide

theorem witness_StoppedCoreKeepsItsStateUntilReset : (let s : State := { r0 with status := .faulted, schedule := [.timerTick] }
    (∃ t, step s = .next t) ∧ s.status ≠ .running ∧ ∀ rom, s.nextEvent.1 ≠ .reset rom) ∧
    (∃ s t : State, step s = .next t ∧ s.status = .halted ∧ s.nextEvent.1 = .reset [0x12]) :=
  ⟨⟨⟨_, rfl⟩, by decide, fun _ h => by cases h⟩, ⟨{ r0 with status := .halted, schedule := [.reset [0x12]] }, _, rfl, rfl, rfl⟩⟩

theorem witness_OnlyResetLeavesSchip :
    (∃ t, step (schip r0) = .next t) ∧ (schip r0).dialect = .schip ∧ ∀ rom, (schip r0).nextEvent.1 ≠ .reset rom :=
  ⟨⟨_, rfl⟩, rfl, fun _ h => by cases h⟩

theorem witness_ResetRebuildsTheCore : 0 < [(0x12 : Byte), 0x34].length ∧ 3583 < 3584 ∧
    (79 < r0.params.fontBase.addr ∨ r0.params.fontBase.addr + 80 ≤ 80) ∧
    (80 < 0x200 ∨ 0x200 + min [(0x12 : Byte)].length 3584 ≤ 4095) := by decide

/-- A state other than the reset state that meets the invariant: a clipped screen pixel lit, a return address pushed. -/
def running : State := { r0 with pc := 0x10FE, i := 0xFFF, sp := 1, stack := r0.stack.set 0 4096, mem := [(4095, 1)] }

theorem witness_StepKeepsTheInvariant : running.Inv ∧ ∃ t, step running = .next t :=
  ⟨{ memory := by decide
     index := by decide
     pc := by decide
     stack := by decide
     screen := fun x y _ => pixelOf_blank x y
     resolution := by decide
     notFaulted := by decide
     faulted := by decide
     report := by decide }, ⟨_, rfl⟩⟩

/-- A schedule that takes the six kinds in turn is fair, so the premise `Fair` can be met. -/
def turns (n : Nat) : Config.HostEvent :=
  match n % 6 with
  | 0 => .slot
  | 1 => .timerTick
  | 2 => .gateOpen
  | 3 => .dirtyAck
  | 4 => .inputChange r0.inputs
  | _ => .reset [0x12, 0x00]

theorem witness_Fair : Fair turns := by
  intro kind n
  cases kind
  · exact ⟨6 * n + 0, by omega, by unfold turns; rw [Nat.mul_add_mod]; rfl⟩
  · exact ⟨6 * n + 1, by omega, by unfold turns; rw [Nat.mul_add_mod]; rfl⟩
  · exact ⟨6 * n + 2, by omega, by unfold turns; rw [Nat.mul_add_mod]; rfl⟩
  · exact ⟨6 * n + 3, by omega, by unfold turns; rw [Nat.mul_add_mod]; rfl⟩
  · exact ⟨6 * n + 4, by omega, by unfold turns; rw [Nat.mul_add_mod]; rfl⟩
  · exact ⟨6 * n + 5, by omega, by unfold turns; rw [Nat.mul_add_mod]; rfl⟩

/-- Slots for ever are no fair schedule: the run from the reset state is not one. -/
theorem test_reset_is_not_fair : ¬r0.fair := by
  intro h
  obtain ⟨m, _, he⟩ := h .timerTick 0
  exact absurd he (by simp [State.eventAt, State.reset, kindOf])

end Sys2Proof.Tests
end

section
/-! PROOFS. How `pc` moves before the decoded word runs (`30_encoding.md` R72). -/

namespace Sys2Proof.Machine

variable {s : State} {w : Word}

/-- Memory order is big-endian (`20_memory.md` R56). -/
theorem wordOfBytes_eq_iff (first second : Byte) (w : Word) :
    wordOfBytes first second = w ↔ w.toNat = 0x100 * first.toNat + second.toNat := by
  rw [← BitVec.toNat_inj, wordOfBytes, BitVec.toNat_ofNat]
  omega

/-- The case of `slot_cases` in which a word is run. -/
theorem slot_of_fetched (hrun : s.status = .running) (hpow : s.inputs.powerOffReq = false) (hpc : s.pc.toNat ≤ 4094)
    (hw : w.toNat = 0x100 * (s.readByte s.pc.toNat).toNat + (s.readByte (s.pc.toNat + 1)).toNat) :
    slot s = runWord w s.advance := by
  obtain ⟨hstop, _⟩ | ⟨_, hoff, _⟩ | ⟨_, _, hend, _⟩ | ⟨_, _, _, hslot⟩ := slot_cases s
  · exact absurd hrun hstop
  · simp [hpow] at hoff
  · omega
  · rw [hslot, (wordOfBytes_eq_iff _ _ w).2 hw]

/-- Taking the next event off and advancing `pc` touches nothing else. -/
theorem unchangedBut_advance_nextEvent (s : State) :
    UnchangedBut (fun p => p = .pc ∨ p = .schedule) s s.nextEvent.2.advance := by
  obtain ⟨q, b, hnext⟩ := nextEvent_state s
  rw [hnext]
  intro p
  cases p with
  | pc => exact .inl (.inl rfl)
  | schedule => exact .inl (.inr rfl)
  | callStack => exact .inr ⟨rfl, rfl⟩
  | faultRecord => exact .inr ⟨rfl, rfl, rfl, rfl⟩
  | unknownReport => exact .inr ⟨rfl, rfl, rfl⟩
  | screen => exact .inr fun _ _ => rfl
  | _ => exact .inr rfl

@[simp] theorem nextEvent_pc (s : State) : s.nextEvent.2.pc = s.pc := by
  obtain ⟨q, b, hnext⟩ := nextEvent_state s
  rw [hnext]

/-- A step that fetches `w` runs it with the event taken off the schedule and `pc` advanced: what `slot` looks at is not
on the schedule. -/
theorem step_of_fetched (hev : s.nextEvent.1 = .slot) (hrun : s.status = .running)
    (hpow : s.inputs.powerOffReq = false) (hpc : s.pc.toNat ≤ 4094)
    (hw : w.toNat = 0x100 * (s.readByte s.pc.toNat).toNat + (s.readByte (s.pc.toNat + 1)).toNat) :
    step s = runWord w s.nextEvent.2.advance := by
  have hstep : step s = slot s.nextEvent.2 := by rw [step, hev, hostEvent]
  obtain ⟨q, b, hnext⟩ := nextEvent_state s
  rw [hstep, hnext]
  exact slot_of_fetched hrun hpow hpc hw

/-- Settles O5: the state the word runs at is the one with the event taken off and `pc` advanced. -/
theorem stepAdvancesPcThenRunsDecodedWord : Obligations.StepAdvancesPcThenRunsDecodedWord := by
  intro s w hev hrun hpow hpc hw
  have hstep := step_of_fetched hev hrun hpow hpc hw
  refine ⟨s.nextEvent.2.advance, ?_, unchangedBut_advance_nextEvent s, fun i hi => ?_, fun e he => ?_⟩
  · rw [State.advance_pc, nextEvent_pc]
  · rw [hstep, runWord_ok hi]
  · rw [hstep, runWord_error he]

end Sys2Proof.Machine
end

section
/-! PROOFS. Jumps and immediate skips: their words, and that they write `pc` alone (`41_control_flow.md` R111, R114,
R115). -/

open Sys2Proof.Claims

namespace Sys2Proof.Machine

/-! ### The words -/

theorem decodes_jp (nnn : BitVec 12) : Decodes (0x1000 + nnn.toNat) (.jp nnn) := by
  show decodeWord (wordNNN 0x1 nnn.toNat) = _
  rw [decodeWord, opField_wordNNN (by decide) nnn.isLt, nnnField_wordNNN (by decide)]
  rfl

theorem decodes_seImm (x : Reg) (nn : Byte) : Decodes (0x3000 + 0x100 * x.val + nn.toNat) (.seImm x nn) := by
  show decodeWord (wordXNN 0x3 x.val nn.toNat) = _
  rw [decodeWord, opField_wordXNN (by decide) x.isLt nn.isLt, xField_wordXNN (by decide) x nn.isLt,
    nnField_wordXNN (by decide) x.isLt]
  rfl

theorem decodes_sneImm (x : Reg) (nn : Byte) : Decodes (0x4000 + 0x100 * x.val + nn.toNat) (.sneImm x nn) := by
  show decodeWord (wordXNN 0x4 x.val nn.toNat) = _
  rw [decodeWord, opField_wordXNN (by decide) x.isLt nn.isLt, xField_wordXNN (by decide) x nn.isLt,
    nnField_wordXNN (by decide) x.isLt]
  rfl

/-! ### What a write of `pc` and a skip leave alone -/

theorem unchangedBut_setPc (s : State) (a : Word) : UnchangedBut justPc s (s.setPc a) := by
  intro p
  cases p with
  | pc => exact .inl rfl
  | callStack => exact .inr ⟨rfl, rfl⟩
  | screen => exact .inr fun _ _ => rfl
  | faultRecord => exact .inr ⟨rfl, rfl, rfl, rfl⟩
  | unknownReport => exact .inr ⟨rfl, rfl, rfl⟩
  | schedule => exact .inr ⟨rfl, rfl⟩
  | _ => exact .inr rfl

/-- A skip is a write of `pc`, taken or not. -/
theorem State.skipIf_eq_setPc (s : State) (c : Bool) : s.skipIf c = s.setPc (if c then s.pc + 2 else s.pc) := by
  cases c <;> rfl

/-- Every skip instruction answers this way; `Taken` and `Passed` are the two conditions its rule tests. -/
theorem completes_of_skipIf {i : Instr} {s : State} {c : Bool} {Taken Passed : Prop}
    (hexec : exec i s = .next (s.skipIf c)) (htaken : Taken → c = true) (hpassed : Passed → c = false) :
    Completes i s fun t =>
      (Taken → t.pc = s.pc + 2) ∧ (Passed → t.pc = s.pc) ∧ UnchangedBut justPc s t := by
  rw [State.skipIf_eq_setPc] at hexec
  refine ⟨_, hexec, fun h => ?_, fun h => ?_, unchangedBut_setPc s _⟩
  · simp [htaken h]
  · simp [hpassed h]

/-! ### The obligations -/

/-- Settles O16: a 12-bit address fits `pc`, and the jump is one write of `pc`. -/
theorem jpSetsPcToTheAddress : Obligations.JpSetsPcToTheAddress := by
  intro nnn
  refine ⟨decodes_jp nnn, fun s => ⟨s.setPc (nnn.setWidth 16), rfl, ?_, unchangedBut_setPc s _⟩⟩
  rw [State.setPc_pc]
  exact BitVec.toNat_setWidth_of_le (by decide)

/-- Settles O19: both instructions are skips, on equality and on inequality of the same two bytes. -/
theorem immediateSkipsCompareTheRegister : Obligations.ImmediateSkipsCompareTheRegister := by
  intro x nn
  refine ⟨decodes_seImm x nn, decodes_sneImm x nn, fun s => ⟨?_, ?_⟩⟩
  · exact completes_of_skipIf (c := s.reg x == nn) rfl
      (by simp [BitVec.toNat_inj]) (by simp [BitVec.toNat_inj])
  · exact completes_of_skipIf (c := s.reg x != nn) rfl
      (by simp [BitVec.toNat_inj]) (by simp [BitVec.toNat_inj])

end Sys2Proof.Machine
end

section
/-! PROOFS. Loads and the immediate add: their words, and that they write one general register alone (`42_alu.md` R130 to
R132). -/

open Sys2Proof.Claims

namespace Sys2Proof.Machine

/-! ### The words -/

/-- The word of a row that `op` alone selects decodes to that row's instruction of its fields `x` and `nn`. -/
theorem decodes_XNN_of_opField {op : Nat} {row : Reg → Byte → Instr} (hop : op < 16)
    (hrow : ∀ w, opField w = op → decodeWord w = .ok (row (xField w) (nnField w))) (x : Reg) (nn : Byte) :
    Decodes (0x1000 * op + 0x100 * x.val + nn.toNat) (row x nn) := by
  have h := hrow (wordXNN op x.val nn.toNat) (opField_wordXNN hop x.isLt nn.isLt)
  rwa [xField_wordXNN hop x nn.isLt, nnField_wordXNN hop x.isLt] at h

theorem decodes_ldImm (x : Reg) (nn : Byte) : Decodes (0x6000 + 0x100 * x.val + nn.toNat) (.ldImm x nn) :=
  decodes_XNN_of_opField (op := 0x6) (by decide) (fun _ h => by simp [decodeWord, h]) x nn

theorem decodes_addImm (x : Reg) (nn : Byte) : Decodes (0x7000 + 0x100 * x.val + nn.toNat) (.addImm x nn) :=
  decodes_XNN_of_opField (op := 0x7) (by decide) (fun _ h => by simp [decodeWord, h]) x nn

theorem decodes_ldReg (x y : Reg) : Decodes (0x8000 + 0x100 * x.val + 0x10 * y.val) (.ldReg x y) := by
  show decodeWord (wordXYN 0x8 x.val y.val 0x0) = _
  rw [decodeWord, opField_wordXYN (by decide) x.isLt y.isLt (by decide)]
  show decodeEight _ = _
  rw [decodeEight, nField_wordXYN (by decide) x.isLt y.isLt (by decide), xField_wordXYN (by decide) x y.isLt (by decide),
    yField_wordXYN (by decide) x.isLt y (by decide)]
  rfl

/-! ### What a write of one register leaves alone -/

theorem unchangedBut_setReg (s : State) (x : Reg) (b : Byte) : UnchangedBut (justReg x) s (s.setReg x b) := by
  intro p
  cases p with
  | reg r =>
    by_cases hr : r = x
    · exact .inl (congrArg Part.reg hr)
    · exact .inr (State.reg_setReg_ne s x r b hr)
  | callStack => exact .inr ⟨rfl, rfl⟩
  | screen => exact .inr fun _ _ => rfl
  | faultRecord => exact .inr ⟨rfl, rfl, rfl, rfl⟩
  | unknownReport => exact .inr ⟨rfl, rfl, rfl⟩
  | schedule => exact .inr ⟨rfl, rfl⟩
  | _ => exact .inr rfl

/-- Every instruction that is one register write answers this way, VF being a register like any other. -/
theorem completes_of_setReg {i : Instr} {s : State} {x : Reg} {b : Byte} (hexec : exec i s = .next (s.setReg x b)) :
    Completes i s fun t => t.reg x = b ∧ UnchangedBut (justReg x) s t :=
  ⟨_, hexec, State.reg_setReg_self s x b, unchangedBut_setReg s x b⟩

/-! ### The obligations -/

/-- Settles O22: both loads are one register write, of the immediate and of what Vy holds before it. -/
theorem loadsWriteOneRegister : Obligations.LoadsWriteOneRegister := by
  intro x y nn
  exact ⟨decodes_ldImm x nn, decodes_ldReg x y, fun s => ⟨completes_of_setReg rfl, completes_of_setReg rfl⟩⟩

/-- Settles O23: the add is one register write, of a sum of bytes, and a sum of bytes is taken modulo 256. -/
theorem addImmediateWrapsWithoutFlag : Obligations.AddImmediateWrapsWithoutFlag := by
  intro x nn
  refine ⟨decodes_addImm x nn, fun s => ?_⟩
  obtain ⟨t, hexec, hreg, hsame⟩ := completes_of_setReg (i := .addImm x nn) (s := s) rfl
  exact ⟨t, hexec, by rw [hreg, BitVec.toNat_add], hsame⟩

end Sys2Proof.Machine
end

section
/-! PROOFS. The load of the index register: its word, and that it writes `I` alone (`43_index_memory.md` R150). -/

open Sys2Proof.Claims

namespace Sys2Proof.Machine

theorem decodes_ldI (nnn : BitVec 12) : Decodes (0xA000 + nnn.toNat) (.ldI nnn) := by
  show decodeWord (wordNNN 0xA nnn.toNat) = _
  rw [decodeWord, opField_wordNNN (by decide) nnn.isLt, nnnField_wordNNN (by decide)]
  rfl

theorem unchangedBut_setIndex (s : State) (n : Nat) : UnchangedBut (fun p => p = .index) s (s.setIndex n) := by
  intro p
  cases p with
  | index => exact .inl rfl
  | callStack => exact .inr ⟨rfl, rfl⟩
  | screen => exact .inr fun _ _ => rfl
  | faultRecord => exact .inr ⟨rfl, rfl, rfl, rfl⟩
  | unknownReport => exact .inr ⟨rfl, rfl, rfl⟩
  | schedule => exact .inr ⟨rfl, rfl⟩
  | _ => exact .inr rfl

/-- Settles O29: the load is one write of `I`, and the 12-bit mask of that write keeps every `nnn`, 0xFFF included. -/
theorem loadIndexTakesTheAddress : Obligations.LoadIndexTakesTheAddress := by
  intro nnn
  refine ⟨decodes_ldI nnn, fun s => ⟨s.setIndex nnn.toNat, rfl, ?_, unchangedBut_setIndex s _⟩⟩
  rw [State.setIndex_toNat, Nat.mod_eq_of_lt nnn.isLt]

end Sys2Proof.Machine
end

section
/-! PROOFS. The decoder, the encoder and the opcode map say the same thing (`30_encoding.md` section 3). -/

open Sys2Proof.Claims

namespace Sys2Proof

variable {w : Word} {op : Nat}

/-! ### A word is made of its fields -/

theorem wordNNN_of_fields (h : opField w = op) : wordNNN op (nnnField w).toNat = w := by
  apply BitVec.eq_of_toNat_eq
  simp only [opField, slice] at h
  simp only [wordNNN, nnnField, slice, BitVec.toNat_ofNat]
  omega

theorem wordXNN_of_fields {nn : Nat} (h : opField w = op) (hnn : slice w 7 0 = nn) :
    wordXNN op (xField w).val nn = w := by
  apply BitVec.eq_of_toNat_eq
  simp only [opField, slice] at h hnn
  simp only [wordXNN, xField, slice, BitVec.toNat_ofNat, Fin.val_ofNat]
  omega

theorem wordXYN_of_fields {n : Nat} (h : opField w = op) (hn : nField w = n) :
    wordXYN op (xField w).val (yField w).val n = w := by
  apply BitVec.eq_of_toNat_eq
  simp only [opField, nField, slice] at h hn
  simp only [wordXYN, xField, yField, slice, BitVec.toNat_ofNat, Fin.val_ofNat]
  omega

theorem nnField_toNat (w : Word) : (nnField w).toNat = slice w 7 0 := by
  simp only [nnField, slice, BitVec.toNat_ofNat]
  omega

theorem nField_le (w : Word) : nField w ≤ 15 := by
  simp only [nField, slice]
  omega

/-- With `op = 0` the low 12 bits are the whole word. -/
theorem eq_of_low12 {k : Nat} (h : opField w = 0) (hk : slice w 11 0 = k) : BitVec.ofNat 16 k = w := by
  apply BitVec.eq_of_toNat_eq
  simp only [opField, slice] at h hk
  simp only [BitVec.toNat_ofNat]
  omega

/-! ### From a word to its instruction and back -/

/-- `w` is the word of the well-formed instruction `i`. -/
def IsWordOf (w : Word) (i : Instr) : Prop := i.wellFormed = true ∧ encode i = w

theorem isWordOf_of_decodeZero {i : Instr} (hop : opField w = 0x0) (h : decodeZero w = .ok i) : IsWordOf w i := by
  unfold decodeZero at h
  split at h <;> cases h <;> exact ⟨rfl, eq_of_low12 hop ‹_›⟩

theorem isWordOf_of_decodeFive {i : Instr} (hop : opField w = 0x5) (h : decodeFive w = .ok i) : IsWordOf w i := by
  unfold decodeFive at h
  split at h <;> cases h
  exact ⟨rfl, wordXYN_of_fields hop ‹_›⟩

theorem isWordOf_of_decodeEight {i : Instr} (hop : opField w = 0x8) (h : decodeEight w = .ok i) : IsWordOf w i := by
  unfold decodeEight at h
  split at h <;> cases h <;> exact ⟨rfl, wordXYN_of_fields hop ‹_›⟩

theorem isWordOf_of_decodeNine {i : Instr} (hop : opField w = 0x9) (h : decodeNine w = .ok i) : IsWordOf w i := by
  unfold decodeNine at h
  split at h <;> cases h
  exact ⟨rfl, wordXYN_of_fields hop ‹_›⟩

theorem isWordOf_of_decodeE {i : Instr} (hop : opField w = 0xE) (h : decodeE w = .ok i) : IsWordOf w i := by
  unfold decodeE at h
  split at h <;> cases h <;> exact ⟨rfl, wordXNN_of_fields hop ‹_›⟩

theorem isWordOf_of_decodeF {i : Instr} (hop : opField w = 0xF) (h : decodeF w = .ok i) : IsWordOf w i := by
  unfold decodeF at h
  split at h <;> cases h <;> exact ⟨rfl, wordXNN_of_fields hop ‹_›⟩

/-- Each arm of the decoder keeps every bit of the word: the digits that choose the arm and the fields it reads. -/
theorem isWordOf_of_decodeWord {i : Instr} (h : decodeWord w = .ok i) : IsWordOf w i := by
  unfold decodeWord at h
  split at h
  case h_1 hop => exact isWordOf_of_decodeZero hop h
  case h_6 hop => exact isWordOf_of_decodeFive hop h
  case h_9 hop => exact isWordOf_of_decodeEight hop h
  case h_10 hop => exact isWordOf_of_decodeNine hop h
  case h_15 hop => exact isWordOf_of_decodeE hop h
  case h_16 hop => exact isWordOf_of_decodeF hop h
  case h_14 hop =>
    cases h
    exact ⟨decide_eq_true (nField_le w), wordXYN_of_fields hop rfl⟩
  case h_2 hop | h_3 hop | h_11 hop | h_12 hop =>
    cases h
    exact ⟨rfl, wordNNN_of_fields hop⟩
  case h_4 hop | h_5 hop | h_7 hop | h_8 hop | h_13 hop =>
    cases h
    exact ⟨rfl, wordXNN_of_fields hop (nnField_toNat w).symm⟩
  case h_17 => cases h

/-- Settles O3, arm by arm of the decoder. -/
theorem decodedWordsEncodeBack : Obligations.DecodedWordsEncodeBack :=
  fun _ _ h => isWordOf_of_decodeWord h

/-- The fields of an encoded word are the operands of the instruction, arm by arm of the decoder. -/
theorem decodeWord_encode {i : Instr} (h : i.wellFormed = true) : decodeWord (encode i) = .ok i := by
  cases i with
  | cls | ret | exit | low | high => rfl
  | jp nnn | call nnn | ldI nnn | jpV0 nnn =>
    simp [encode, decodeWord, opField_wordNNN, nnnField_wordNNN, nnn.isLt]
  | seImm x nn | sneImm x nn | ldImm x nn | addImm x nn | rnd x nn =>
    simp [encode, decodeWord, opField_wordXNN, xField_wordXNN, nnField_wordXNN, x.isLt, nn.isLt]
  | seReg x y | sneReg x y | ldReg x y | orReg x y | andReg x y | xorReg x y | addReg x y | sub x y | shr x y
  | subn x y | shl x y =>
    simp [encode, decodeWord, decodeFive, decodeEight, decodeNine, opField_wordXYN, xField_wordXYN, yField_wordXYN,
      nField_wordXYN]
  | drw x y n =>
    have hn : n < 16 := Nat.lt_succ_of_le (of_decide_eq_true h)
    simp [encode, decodeWord, opField_wordXYN, xField_wordXYN, yField_wordXYN, nField_wordXYN, hn]
  | skp x | sknp x | ldVxDT x | ldVxK x | ldDTVx x | ldSTVx x | addI x | ldF x | ldB x | storeRegs x | loadRegs x =>
    simp [encode, decodeWord, decodeE, decodeF, opField_wordXNN, xField_wordXNN, low8_wordXNN]

/-- The two bytes of a word in memory order make the word again. -/
theorem decode_bytesOfWord {i : Instr} (h : decodeWord w = .ok i) (rest : List Byte) :
    decode (bytesOfWord w ++ rest) = .ok (i, rest) := by
  have hword : wordOfBytes (BitVec.ofNat 8 (slice w 15 8)) (BitVec.ofNat 8 (slice w 7 0)) = w := by
    apply BitVec.eq_of_toNat_eq
    simp only [wordOfBytes, slice, BitVec.toNat_ofNat]
    omega
  simp [bytesOfWord, decode, hword, h]

/-- Settles O2: the operands are read back from the fields, and the word from its two bytes. -/
theorem encodedInstructionsDecodeBack : Obligations.EncodedInstructionsDecodeBack :=
  fun _ h => ⟨decodeWord_encode h, decode_bytesOfWord (decodeWord_encode h)⟩

/-- The number of the word of a well-formed instruction decodes to it. -/
theorem decodes_of_encode {m n : Nat} {i : Instr} (h : i.wellFormed = true) (hm : encode i = BitVec.ofNat 16 m)
    (hmn : m = n) : Decodes n i := by
  rw [Decodes, ← hmn, ← hm, decodeWord_encode h]

/-! ### The opcode map -/

/-- The word of every well-formed instruction is covered by the instruction's own row. -/
theorem encodingRow (i : Instr) : Laws.EncodingRow.Statement i := by
  open Laws.EncodingRow in
  exact match i with
  | .cls => cls
  | .ret => ret
  | .exit => exit
  | .low => low
  | .high => high
  | .jp nnn => jp nnn
  | .call nnn => call nnn
  | .seImm x nn => seImm x nn
  | .sneImm x nn => sneImm x nn
  | .seReg x y => seReg x y
  | .ldImm x nn => ldImm x nn
  | .addImm x nn => addImm x nn
  | .ldReg x y => ldReg x y
  | .orReg x y => orReg x y
  | .andReg x y => andReg x y
  | .xorReg x y => xorReg x y
  | .addReg x y => addReg x y
  | .sub x y => sub x y
  | .shr x y => shr x y
  | .subn x y => subn x y
  | .shl x y => shl x y
  | .sneReg x y => sneReg x y
  | .ldI nnn => ldI nnn
  | .jpV0 nnn => jpV0 nnn
  | .rnd x nn => rnd x nn
  | .drw x y n => drw x y n
  | .skp x => skp x
  | .sknp x => sknp x
  | .ldVxDT x => ldVxDT x
  | .ldVxK x => ldVxK x
  | .ldDTVx x => ldDTVx x
  | .ldSTVx x => ldSTVx x
  | .addI x => addI x
  | .ldF x => ldF x
  | .ldB x => ldB x
  | .storeRegs x => storeRegs x
  | .loadRegs x => loadRegs x

theorem covers_of_decodeWord {i : Instr} (h : decodeWord w = .ok i) :
    ∃ r ∈ opcodeRows, r.covers w = true ∧ r.mnemonic = i.mnemonic := by
  obtain ⟨hwf, hw⟩ := isWordOf_of_decodeWord h
  obtain ⟨r, hr, hm, hmask⟩ := encodingRow i hwf
  exact ⟨r, hr, by rw [OpcodeRow.covers, ← hw, hmask, beq_self_eq_true], hm⟩

/-- Two different rows demand different digits at a place that both fix. -/
theorem opcodeRows_conflict : ∀ r ∈ opcodeRows, ∀ r' ∈ opcodeRows,
    r.pattern &&& r'.mask = r'.pattern &&& r.mask → r = r' := by
  decide

theorem opcodeRows_disjoint {r r' : OpcodeRow} (hr : r ∈ opcodeRows) (hr' : r' ∈ opcodeRows)
    (h : r.covers w = true) (h' : r'.covers w = true) : r = r' := by
  simp only [OpcodeRow.covers, beq_iff_eq] at h h'
  refine opcodeRows_conflict r hr r' hr' ?_
  rw [← h, ← h', BitVec.and_assoc, BitVec.and_assoc, BitVec.and_comm r.mask]

theorem decodeWord_error {e : DecodeError} (h : decodeWord w = .error e) : e = .unknownOpcode w := by
  simp only [decodeWord, decodeZero, decodeFive, decodeEight, decodeNine, decodeE, decodeF] at h
  repeat' split at h
  all_goals cases h
  all_goals rfl

/-- The word decodes to some instruction. -/
def Known (w : Word) : Prop := ∃ i, decodeWord w = .ok i

/-- The fixed digits of the rows in which `op` alone is fixed. -/
def opPatterns : List Word := [0x1000, 0x2000, 0x3000, 0x4000, 0x6000, 0x7000, 0xA000, 0xB000, 0xC000, 0xD000]

/-- The fixed digits of the rows in which `op` and `n` are fixed. -/
def opNPatterns : List Word :=
  [0x5000, 0x8000, 0x8001, 0x8002, 0x8003, 0x8004, 0x8005, 0x8006, 0x8007, 0x800E, 0x9000]

/-- The fixed digits of the rows in which `op` and `nn` are fixed. -/
def opNNPatterns : List Word :=
  [0xE09E, 0xE0A1, 0xF007, 0xF00A, 0xF015, 0xF018, 0xF01E, 0xF029, 0xF033, 0xF055, 0xF065]

/-- Every row is of one of the four forms of `30_encoding.md` R77. -/
theorem opcodeRows_forms : ∀ r ∈ opcodeRows,
    (r.mask = 0xFFFF ∧ r.pattern ∈ systemRows.map OpcodeRow.pattern) ∨ (r.mask = 0xF000 ∧ r.pattern ∈ opPatterns) ∨
    (r.mask = 0xF00F ∧ r.pattern ∈ opNPatterns) ∨ (r.mask = 0xF0FF ∧ r.pattern ∈ opNNPatterns) := by
  decide

theorem known_of_system {p : Word} (hp : p ∈ systemRows.map OpcodeRow.pattern) : Known p := by
  fin_cases hp <;> exact ⟨_, rfl⟩

theorem known_of_op {p : Word} (hp : p ∈ opPatterns) (h : w &&& 0xF000 = p) : Known w := by
  have hop : opField w = p.toNat / 0x1000 := by
    have := (and_F000_eq w p).1 h
    omega
  fin_cases hp <;> exact ⟨_, by simp [decodeWord, hop]; rfl⟩

theorem known_of_opN {p : Word} (hp : p ∈ opNPatterns) (h : w &&& 0xF00F = p) : Known w := by
  have hfields := (and_F00F_eq w p).1 h
  have hle := nField_le w
  have hop : opField w = p.toNat / 0x1000 := by omega
  have hn : nField w = p.toNat % 0x1000 := by omega
  fin_cases hp <;> exact ⟨_, by simp [decodeWord, decodeFive, decodeEight, decodeNine, hop, hn]; rfl⟩

theorem known_of_opNN {p : Word} (hp : p ∈ opNNPatterns) (h : w &&& 0xF0FF = p) : Known w := by
  have hfields := (and_F0FF_eq w p).1 h
  have hlt : slice w 7 0 < 256 := Nat.mod_lt _ (by decide)
  have hop : opField w = p.toNat / 0x1000 := by omega
  have hnn : slice w 7 0 = p.toNat % 0x1000 := by omega
  fin_cases hp <;> exact ⟨_, by simp [decodeWord, decodeE, decodeF, hop, hnn]; rfl⟩

theorem known_of_covers {r : OpcodeRow} (hr : r ∈ opcodeRows) (h : r.covers w = true) : Known w := by
  rw [OpcodeRow.covers, beq_iff_eq] at h
  obtain ⟨hm, hp⟩ | ⟨hm, hp⟩ | ⟨hm, hp⟩ | ⟨hm, hp⟩ := opcodeRows_forms r hr <;> rw [hm] at h
  · have hw : w = r.pattern := by rw [← h]; exact (BitVec.and_allOnes (x := w)).symm
    exact hw ▸ known_of_system hp
  · exact known_of_op hp h
  · exact known_of_opN hp h
  · exact known_of_opNN hp h

/-- A word no row covers is the unknown-opcode error of that word, and only such a word is (`30_encoding.md` R79). -/
theorem uncovered_iff : (∀ r ∈ opcodeRows, r.covers w = false) ↔ decodeWord w = .error (.unknownOpcode w) := by
  constructor
  · intro hnone
    cases h : decodeWord w with
    | ok i =>
      obtain ⟨r, hr, hcov, _⟩ := covers_of_decodeWord h
      simp [hnone r hr] at hcov
    | error e => rw [decodeWord_error h]
  · intro herr r hr
    by_contra hcov
    obtain ⟨i, hi⟩ := known_of_covers hr (eq_true_of_ne_false hcov)
    simp [herr] at hi

/-- Settles O4: two rows that cover one word demand no different digit, and the rows cover exactly the known words. -/
theorem decoderAgreesWithOpcodeMap : Obligations.DecoderAgreesWithOpcodeMap := fun _ =>
  ⟨fun _ hr _ hr' => opcodeRows_disjoint hr hr', fun _ => covers_of_decodeWord, uncovered_iff⟩

/-- Settles O1: the vectors name words, and the decoder is run on each. -/
theorem specVectorWordsDecode : Obligations.SpecVectorWordsDecode := by
  unfold Obligations.SpecVectorWordsDecode Decodes IsUnknown
  decide

end Sys2Proof
end

section
/-! PROOFS. What each update of the state leaves unchanged, and how such frames compose. -/

open Sys2Proof.Claims

namespace Sys2Proof.Machine

section Compose

variable {T T' : Part → Prop} {s t u : State}

theorem Part.same_refl (s : State) (p : Part) : p.same s s := by
  cases p <;> simp [Part.same]

theorem Part.same.trans {p : Part} (h : p.same s t) (h' : p.same t u) : p.same s u := by
  cases p <;> simp_all [Part.same]

theorem UnchangedBut.refl (T : Part → Prop) (s : State) : UnchangedBut T s s := fun p => .inr (p.same_refl s)

theorem UnchangedBut.mono (h : UnchangedBut T s t) (hT : ∀ p, T p → T' p) : UnchangedBut T' s t := fun p =>
  (h p).imp_left (hT p)

theorem UnchangedBut.trans (h : UnchangedBut T s t) (h' : UnchangedBut T' t u) :
    UnchangedBut (fun p => T p ∨ T' p) s u := by
  intro p
  obtain hT | hsame := h p
  · exact .inl (.inl hT)
  · exact (h' p).imp .inr hsame.trans

end Compose

variable (s : State)

theorem unchangedBut_setDelay (b : Byte) : UnchangedBut (fun p => p = .delay) s (s.setDelay b) := by
  intro p
  cases p <;> simp [Part.same]

theorem unchangedBut_setSound (b : Byte) : UnchangedBut (fun p => p = .sound) s (s.setSound b) := by
  intro p
  cases p <;> simp [Part.same]

theorem unchangedBut_setStatus (st : Status) : UnchangedBut (fun p => p = .status) s (s.setStatus st) := by
  intro p
  cases p <;> simp [Part.same]

theorem unchangedBut_setScreen (fb : Vector (BitVec 128) 64) :
    UnchangedBut (fun p => p = .screen) s (s.setScreen fb) := by
  intro p
  cases p <;> simp [Part.same]

theorem unchangedBut_setDirty (d : Bool) : UnchangedBut (fun p => p = .dirty) s (s.setDirty d) := by
  intro p
  cases p <;> simp [Part.same]

theorem unchangedBut_setGate (g : Bool) : UnchangedBut (fun p => p = .gate) s (s.setGate g) := by
  intro p
  cases p <;> simp [Part.same]

theorem unchangedBut_selectResolution (h : Bool) :
    UnchangedBut (fun p => p = .dialect ∨ p = .hires) s (s.selectResolution h) := by
  intro p
  cases p <;> simp [Part.same]

theorem unchangedBut_raise (k : FaultKind) (a w : Word) : UnchangedBut faultParts s (s.raise k a w) := by
  intro p
  cases p <;> simp [Part.same, faultParts]

theorem unchangedBut_reportUnknown (w : Word) : UnchangedBut (fun p => p = .unknownReport) s (s.reportUnknown w) := by
  intro p
  cases p <;> simp [Part.same]

theorem unchangedBut_countSample : UnchangedBut (fun p => p = .rngCount) s s.countSample := by
  intro p
  cases p <;> simp [Part.same]

theorem unchangedBut_setRegsUpTo (x : Reg) (f : Nat → Byte) :
    UnchangedBut (fun p => ∃ k : Reg, k.val ≤ x.val ∧ p = .reg k) s (s.setRegsUpTo x f) := by
  intro p
  cases p <;> simp [Part.same, State.reg_setRegsUpTo]
  exact (em _).imp_right fun hgt hle => absurd hle hgt

theorem unchangedBut_inputs (levels : Config.Inputs) :
    UnchangedBut (fun p => p = .inputs) s { s with inputs := levels } := by
  intro p
  cases p <;> simp [Part.same, State.reg, State.readByte, State.pixel]

theorem unchangedBut_schedule (q : List Config.HostEvent) (b : Beyond) :
    UnchangedBut (fun p => p = .schedule) s { s with schedule := q, beyond := b } := by
  intro p
  cases p <;> simp [Part.same, State.reg, State.readByte, State.pixel]

theorem unchangedBut_callStack (sp : Fin 17) (stack : Vector Word 16) (a : Word) :
    UnchangedBut (fun p => p = .pc ∨ p = .callStack) s { s with sp := sp, stack := stack, pc := a } := by
  intro p
  cases p <;> simp [Part.same, State.reg, State.readByte, State.pixel]

/-- New memory is a change of the bytes that read otherwise in it. -/
theorem unchangedBut_mem (m : List Host.Cell) : UnchangedBut (fun p => ∃ a, p = .byteAt a ∧
    Memory.read (background s.params) m a ≠ s.readByte a) s { s with mem := m } := by
  intro p
  cases p <;> simp [Part.same, State.reg, State.readByte, State.pixel]
  exact (em _).symm

/-- A multi-byte store touches the bytes of its block. -/
theorem unchangedBut_writeBytes (a : Nat) (bs : List Byte) :
    UnchangedBut (fun p => ∃ k < bs.length, p = .byteAt (a + k)) s (s.writeBytes a bs) := by
  obtain ⟨m, hm⟩ := s.writeBytes_eq a bs
  rw [hm]
  refine (unchangedBut_mem s m).mono ?_
  rintro _ ⟨c, rfl, hne⟩
  by_contra hout
  refine hne ?_
  have hread : (s.writeBytes a bs).readByte c = s.readByte c := by
    refine s.readByte_writeBytes_out a bs ?_
    by_contra hin
    exact hout ⟨c - a, by omega, by congr; omega⟩
  rw [hm] at hread
  exact hread

/-- A result with its flag touches the register and VF. -/
theorem unchangedBut_setResultFlag (x : Reg) (b : Byte) (c : Bool) :
    UnchangedBut (regAndFlag x) s (s.setResultFlag x b c) :=
  (unchangedBut_setReg s x b).trans (unchangedBut_setReg (s.setReg x b) VF (flagByte c))

/-- A change of resolution touches the dialect, the resolution, the screen and `dirty`. -/
theorem unchangedBut_reallocate (h : Bool) :
    UnchangedBut (fun p => p = .dialect ∨ p = .hires ∨ p = .screen ∨ p = .dirty) s (s.reallocate h) := by
  refine (((unchangedBut_selectResolution s h).trans (unchangedBut_setScreen _ _)).trans
    (unchangedBut_setDirty _ true)).mono fun p => ?_
  rintro (((rfl | rfl) | rfl) | rfl) <;> simp

theorem unchangedBut_clearScreen_setDirty :
    UnchangedBut (fun p => p = .screen ∨ p = .dirty) s (s.clearScreen.setDirty true) :=
  (unchangedBut_setScreen s _).trans (unchangedBut_setDirty _ true)

theorem unchangedBut_autoIncrement (x : Reg) :
    UnchangedBut (fun p => p = .index ∧ s.dialect = .chip8) s (s.autoIncrement x) := by
  obtain ⟨hd, heq⟩ | ⟨_, heq⟩ := s.autoIncrement_cases x <;> rw [heq]
  · exact (unchangedBut_setIndex s _).mono fun p hp => ⟨hp, hd⟩
  · exact .refl _ s

theorem unchangedBut_drawSprite (x y : Reg) (n : Nat) :
    UnchangedBut (fun p => p = .reg VF ∨ p = .screen ∨ p = .dirty ∨ p = .gate) s (s.drawSprite x y n) := by
  refine ((((unchangedBut_setGate s false).trans (unchangedBut_setScreen _ _)).trans
    (unchangedBut_setReg _ VF _)).trans (unchangedBut_setDirty _ _)).mono fun p => ?_
  rintro (((rfl | rfl) | rfl) | rfl) <;> simp

/-- The unknown-opcode action touches the report, and under `Halt` what a fault writes too. -/
theorem unchangedBut_doUnknown (w : Word) :
    UnchangedBut (fun p => p = .unknownReport ∨ (s.params.unknownPolicy = .halt ∧ faultParts p)) s (s.doUnknown w) := by
  unfold State.doUnknown
  split
  next => exact (unchangedBut_reportUnknown s w).mono fun _ => .inl
  next hp =>
    exact ((unchangedBut_reportUnknown s w).trans (unchangedBut_raise _ _ _ _)).mono fun _ =>
      (·.imp_right fun hf => ⟨hp, hf⟩)

end Sys2Proof.Machine
end

section
/-! PROOFS. What an instruction can do, said once: the kinds of effect, the parts each instruction may write, and the
statements about which instruction writes what (`10_state.md` R21 to R45, `20_memory.md` R60). -/

open Sys2Proof.Claims

namespace Sys2Proof.Machine

/-! ### The kinds of effect -/

/-- The ways `exec i s` can answer `t`, with what later proofs need of each: which instructions answer so, and the
bounds their rules check first. -/
inductive Effect (i : Instr) (s : State) : State → Prop where
  | stay (hi : mayskip i) : Effect i s s
  | skip (hi : mayskip i) : Effect i s s.advance
  | hold (hi : mayHold i) : Effect i s s.hold
  | jump (a : Word) (hi : setsPc i) (ha : a.toNat ≤ 0x10FE) : Effect i s (s.setPc a)
  | ret (hi : i = .ret) (hs : 0 < s.sp.val) :
      Effect i s { s with sp := ⟨s.sp.val - 1, by omega⟩, pc := s.stack[s.sp.val - 1] }
  | call (nnn : BitVec 12) (hi : i = .call nnn) (hs : s.sp.val < 16) :
      Effect i s { s with
        stack := s.stack.set s.sp.val s.pc hs, sp := ⟨s.sp.val + 1, by omega⟩, pc := nnn.setWidth 16 }
  | load (x : Reg) (b : Byte) (hi : isDestination i x) : Effect i s (s.setReg x b)
  | loadFlag (x : Reg) (b f : Byte) (hi : isDestination i x) (hf : writesFlag i s) :
      Effect i s ((s.setReg x b).setReg VF f)
  | sample (x : Reg) (nn b : Byte) (hi : i = .rnd x nn) : Effect i s ((s.setReg x b).countSample)
  | loadBlock (x : Reg) (f : Nat → Byte) (hi : i = .loadRegs x) : Effect i s ((s.setRegsUpTo x f).autoIncrement x)
  | index (n : Nat) (hi : (∃ nnn, i = .ldI nnn) ∨ (∃ x, i = .addI x) ∨ ∃ x, i = .ldF x) : Effect i s (s.setIndex n)
  | storeDigits (x : Reg) (bs : List Byte) (hi : i = .ldB x) (hlen : bs.length = 3) (hend : s.i.toNat + 2 ≤ 4095) :
      Effect i s (s.writeBytes s.i.toNat bs)
  | storeBlock (x : Reg) (bs : List Byte) (hi : i = .storeRegs x) (hlen : bs.length = x.val + 1)
      (hend : s.i.toNat + x.val ≤ 4095) : Effect i s ((s.writeBytes s.i.toNat bs).autoIncrement x)
  | delay (x : Reg) (b : Byte) (hi : i = .ldDTVx x) : Effect i s (s.setDelay b)
  | sound (x : Reg) (b : Byte) (hi : i = .ldSTVx x) : Effect i s (s.setSound b)
  | clear (hi : i = .cls) : Effect i s (s.clearScreen.setDirty true)
  | resolution (h : Bool) (hi : i = .low ∨ i = .high) : Effect i s (s.reallocate h)
  | halt (hi : i = .exit) : Effect i s (s.setStatus .halted)
  | draw (x y : Reg) (n : Nat) (hi : i = .drw x y n) (hgate : s.gateOpen = true) : Effect i s (s.drawSprite x y n)
  | fault (k : FaultKind) : Effect i s (s.raiseIn i k)

section

variable {i : Instr} {s t : State}

theorem effect_skipIf (hi : mayskip i) (c : Bool) : Effect i s (s.skipIf c) := by
  obtain ⟨_, h⟩ | ⟨_, h⟩ := s.skipIf_cases c <;> rw [h]
  · exact .skip hi
  · exact .stay hi

theorem effect_setLogic {x : Reg} (b : Byte) (hi : isDestination i x) (hf : s.dialect = .chip8 → writesFlag i s) :
    Effect i s (s.setLogic x b) := by
  unfold State.setLogic
  split
  next hd => exact .loadFlag x b 0 hi (hf hd)
  next => exact .load x b hi

theorem addressTarget_le (nnn : BitVec 12) : (nnn.setWidth 16 : Word).toNat ≤ 0x10FE := by
  rw [BitVec.toNat_setWidth_of_le (by decide)]
  omega

theorem jumpTarget_le (nnn : BitVec 12) (b : Byte) : (BitVec.ofNat 16 (nnn.toNat + b.toNat)).toNat ≤ 0x10FE := by
  have := nnn.isLt
  have := b.isLt
  rw [BitVec.toNat_ofNat]
  omega

@[simp] theorem regsUpTo_length (s : State) (x : Reg) : (s.regsUpTo x).length = x.val + 1 := by
  have := x.isLt
  simp [State.regsUpTo]

/-- What an instruction can do (one arm of `exec` after the other). -/
theorem effect_of_exec (h : exec i s = .next t) : Effect i s t := by
  cases i with
  | seImm | sneImm | seReg | sneReg | skp | sknp =>
    obtain rfl := next_inj h
    refine effect_skipIf ?_ _
    exact trivial
  | jp nnn => exact next_inj h ▸ .jump _ trivial (addressTarget_le nnn)
  | jpV0 nnn => exact next_inj h ▸ .jump _ trivial (jumpTarget_le _ _)
  | ret =>
    obtain ⟨hs, rfl⟩ | ⟨_, rfl⟩ := execRet_cases h
    · exact .ret rfl hs
    · exact .fault _
  | call nnn =>
    obtain ⟨hs, rfl⟩ | ⟨_, rfl⟩ := execCall_cases h
    · exact .call nnn rfl hs
    · exact .fault _
  | ldImm | addImm | ldReg | ldVxDT => exact next_inj h ▸ .load _ _ rfl
  | orReg | andReg | xorReg => exact next_inj h ▸ effect_setLogic _ rfl id
  | addReg | sub | shr | subn | shl => exact next_inj h ▸ .loadFlag _ _ _ rfl trivial
  | rnd => exact next_inj h ▸ .sample _ _ _ rfl
  | ldI nnn => exact next_inj h ▸ .index _ (.inl ⟨nnn, rfl⟩)
  | addI x => exact next_inj h ▸ .index _ (.inr (.inl ⟨x, rfl⟩))
  | ldF x => exact next_inj h ▸ .index _ (.inr (.inr ⟨x, rfl⟩))
  | ldDTVx => exact next_inj h ▸ .delay _ _ rfl
  | ldSTVx => exact next_inj h ▸ .sound _ _ rfl
  | cls => exact next_inj h ▸ .clear rfl
  | low => exact next_inj h ▸ .resolution _ (.inl rfl)
  | high => exact next_inj h ▸ .resolution _ (.inr rfl)
  | exit => exact next_inj h ▸ .halt rfl
  | ldVxK x =>
    obtain ⟨k, _, rfl⟩ | ⟨_, rfl⟩ := execLdVxK_cases h
    · exact .load x _ rfl
    · exact .hold trivial
  | ldB x =>
    obtain ⟨hend, rfl⟩ | ⟨_, rfl⟩ := execLdB_cases h
    · exact .storeDigits x _ rfl (bcdDigits_length _) hend
    · exact .fault _
  | storeRegs x =>
    obtain ⟨hend, rfl⟩ | ⟨_, rfl⟩ := execStoreRegs_cases h
    · exact .storeBlock x _ rfl (regsUpTo_length s x) hend
    · exact .fault _
  | loadRegs x =>
    obtain ⟨_, rfl⟩ | ⟨_, rfl⟩ := execLoadRegs_cases h
    · exact .loadBlock x _ rfl
    · exact .fault _
  | drw x y n =>
    obtain ⟨_, rfl⟩ | ⟨hgate, _, rfl⟩ | ⟨_, _, _, rfl⟩ := execDrw_cases h
    · exact .hold trivial
    · exact .draw x y n rfl hgate
    · exact .fault _

/-- No arm of `exec` stops the model. -/
theorem exec_total (i : Instr) (s : State) : ∃ t, exec i s = .next t := by
  cases i with
  | ret | call | ldVxK | ldB | storeRegs | loadRegs | drw =>
    simp only [exec, execRet, execCall, execLdVxK, execLdB, execStoreRegs, execLoadRegs, execDrw]
    repeat' split
    all_goals exact ⟨_, rfl⟩
  | _ => exact ⟨_, rfl⟩

/-! ### The parts an instruction may write -/

/-- The instructions that write `I` (`10_state.md` R26). -/
def movesIndex (i : Instr) (s : State) : Prop :=
  (∃ nnn, i = .ldI nnn) ∨ (∃ x, i = .addI x) ∨ (∃ x, i = .ldF x) ∨
    (s.dialect = .chip8 ∧ ∃ x, i = .storeRegs x ∨ i = .loadRegs x)

/-- The byte at `a` is in the block `i` stores. -/
def storesAt (i : Instr) (s : State) (a : Nat) : Prop :=
  (∃ x, i = .ldB x ∧ s.effAddr 0 ≤ a ∧ a ≤ s.effAddr 2) ∨
    (∃ x : Reg, i = .storeRegs x ∧ s.effAddr 0 ≤ a ∧ a ≤ s.effAddr x.val)

/-- The table of `10_state.md` and `20_memory.md`: which instruction may write which part. -/
def mayWrite (i : Instr) (s : State) : Part → Prop
  | .reg r => isDestination i r ∨ (r = VF ∧ writesFlag i s)
  | .pc => setsPc i ∨ mayskip i ∨ mayHold i
  | .index => movesIndex i s
  | .callStack => i = .ret ∨ ∃ nnn, i = .call nnn
  | .delay => ∃ x, i = .ldDTVx x
  | .sound => ∃ x, i = .ldSTVx x
  | .dialect | .hires => i = .low ∨ i = .high
  | .screen | .dirty => i = .cls ∨ i = .low ∨ i = .high ∨ ∃ x y n, i = .drw x y n
  | .byteAt a => storesAt i s a
  | .gate => ∃ x y n, i = .drw x y n
  | .status | .faultRecord => True
  | .rngCount => ∃ x nn, i = .rnd x nn
  | .unknownReport | .romTruncated | .params | .inputs | .schedule => False

theorem unchangedBut_of_effect (h : Effect i s t) : UnchangedBut (mayWrite i s) s t := by
  cases h with
  | stay hi => exact .refl _ s
  | skip hi => exact (unchangedBut_setPc s _).mono fun _ hp => hp ▸ .inr (.inl hi)
  | hold hi => exact (unchangedBut_setPc s _).mono fun _ hp => hp ▸ .inr (.inr hi)
  | jump a hi ha => exact (unchangedBut_setPc s a).mono fun _ hp => hp ▸ .inl hi
  | ret hi hs =>
    subst hi
    refine (unchangedBut_callStack s _ s.stack _).mono ?_
    rintro _ (rfl | rfl)
    · exact .inl trivial
    · exact .inl rfl
  | call nnn hi hs =>
    subst hi
    refine (unchangedBut_callStack s _ _ _).mono ?_
    rintro _ (rfl | rfl)
    · exact .inl trivial
    · exact .inr ⟨nnn, rfl⟩
  | load x b hi => exact (unchangedBut_setReg s x b).mono fun _ hp => hp ▸ .inl hi
  | loadFlag x b f hi hf =>
    refine ((unchangedBut_setReg s x b).trans (unchangedBut_setReg _ VF f)).mono ?_
    rintro _ (rfl | rfl)
    · exact .inl hi
    · exact .inr ⟨rfl, hf⟩
  | sample x nn b hi =>
    subst hi
    refine ((unchangedBut_setReg s x b).trans (unchangedBut_countSample _)).mono ?_
    rintro _ (rfl | rfl)
    · exact .inl rfl
    · exact ⟨x, nn, rfl⟩
  | loadBlock x f hi =>
    subst hi
    refine ((unchangedBut_setRegsUpTo s x f).trans (unchangedBut_autoIncrement _ x)).mono ?_
    rintro _ (⟨k, hk, rfl⟩ | ⟨rfl, hd⟩)
    · exact .inl hk
    · exact .inr (.inr (.inr ⟨hd, x, .inr rfl⟩))
  | index n hi =>
    refine (unchangedBut_setIndex s n).mono fun _ hp => hp ▸ ?_
    exact hi.imp_right (·.imp_right .inl)
  | storeDigits x bs hi hlen hend =>
    refine (unchangedBut_writeBytes s _ bs).mono ?_
    rintro _ ⟨k, hk, rfl⟩
    exact .inl ⟨x, hi, by simp only [State.effAddr]; omega, by simp only [State.effAddr]; omega⟩
  | storeBlock x bs hi hlen hend =>
    refine ((unchangedBut_writeBytes s _ bs).trans (unchangedBut_autoIncrement _ x)).mono ?_
    rintro _ (⟨k, hk, rfl⟩ | ⟨rfl, hd⟩)
    · exact .inr ⟨x, hi, by simp only [State.effAddr]; omega, by simp only [State.effAddr]; omega⟩
    · exact .inr (.inr (.inr ⟨by simpa using hd, x, .inl hi⟩))
  | delay x b hi => exact (unchangedBut_setDelay s b).mono fun _ hp => hp ▸ ⟨x, hi⟩
  | sound x b hi => exact (unchangedBut_setSound s b).mono fun _ hp => hp ▸ ⟨x, hi⟩
  | clear hi =>
    refine (unchangedBut_clearScreen_setDirty s).mono ?_
    rintro _ (rfl | rfl) <;> exact .inl hi
  | resolution h hi =>
    refine (unchangedBut_reallocate s h).mono ?_
    rintro _ (rfl | rfl | rfl | rfl)
    · exact hi
    · exact hi
    · exact .inr (hi.imp_right .inl)
    · exact .inr (hi.imp_right .inl)
  | halt hi => exact (unchangedBut_setStatus s _).mono fun _ hp => hp ▸ trivial
  | draw x y n hi hgate =>
    subst hi
    refine (unchangedBut_drawSprite s x y n).mono ?_
    rintro _ (rfl | rfl | rfl | rfl)
    · exact .inr ⟨rfl, hgate⟩
    · exact .inr (.inr (.inr ⟨x, y, n, rfl⟩))
    · exact .inr (.inr (.inr ⟨x, y, n, rfl⟩))
    · exact ⟨x, y, n, rfl⟩
  | fault k =>
    refine (unchangedBut_raise s k _ _).mono ?_
    rintro _ (rfl | rfl) <;> exact trivial

/-- An instruction writes no part but those the table gives it. -/
theorem unchangedBut_of_exec (h : exec i s = .next t) : UnchangedBut (mayWrite i s) s t :=
  unchangedBut_of_effect (effect_of_exec h)

/-- The table read for one part: where the part differs, the instruction may write it. -/
theorem mayWrite_of_exec {p : Part} (h : exec i s = .next t) (hne : ¬p.same s t) : mayWrite i s p :=
  (unchangedBut_of_exec h p).resolve_right hne

/-! ### What the written parts become -/

@[simp] theorem State.writeBytes_pc (s : State) (a : Nat) (bs : List Byte) : (s.writeBytes a bs).pc = s.pc := by
  obtain ⟨m, hm⟩ := s.writeBytes_eq a bs
  rw [hm]

@[simp] theorem State.writeBytes_status (s : State) (a : Nat) (bs : List Byte) :
    (s.writeBytes a bs).status = s.status := by
  obtain ⟨m, hm⟩ := s.writeBytes_eq a bs
  rw [hm]

@[simp] theorem State.autoIncrement_pc (s : State) (x : Reg) : (s.autoIncrement x).pc = s.pc := by
  obtain ⟨j, hj⟩ := s.autoIncrement_eq x
  rw [hj]

@[simp] theorem State.autoIncrement_status (s : State) (x : Reg) : (s.autoIncrement x).status = s.status := by
  obtain ⟨j, hj⟩ := s.autoIncrement_eq x
  rw [hj]

theorem State.setIndex_le (s : State) (n : Nat) : (s.setIndex n).i.toNat ≤ 4095 := by
  rw [State.setIndex_toNat]
  omega

theorem State.autoIncrement_index (s : State) (x : Reg) :
    (s.autoIncrement x).i = s.i ∨ (s.autoIncrement x).i.toNat ≤ 4095 := by
  obtain ⟨_, heq⟩ | ⟨_, heq⟩ := s.autoIncrement_cases x <;> rw [heq]
  · exact .inr (s.setIndex_le _)
  · exact .inl rfl

theorem pc_of_effect (h : Effect i s t) :
    t.pc = s.pc ∨ setsPc i ∨ (mayskip i ∧ t.pc = s.pc + 2) ∨ (mayHold i ∧ t.pc = s.pc - 2) := by
  cases h with
  | skip hi => exact .inr (.inr (.inl ⟨hi, rfl⟩))
  | hold hi => exact .inr (.inr (.inr ⟨hi, rfl⟩))
  | jump a hi ha => exact .inr (.inl hi)
  | ret hi hs => exact .inr (.inl (hi ▸ trivial))
  | call nnn hi hs => exact .inr (.inl (hi ▸ trivial))
  | loadBlock | storeDigits | storeBlock => exact .inl (by simp)
  | _ => exact .inl rfl

theorem index_of_effect (h : Effect i s t) : t.i = s.i ∨ t.i.toNat ≤ 4095 := by
  cases h with
  | index n hi => exact .inr (s.setIndex_le n)
  | loadBlock x f hi => exact State.autoIncrement_index _ x
  | storeBlock x bs hi hlen hend => simpa using State.autoIncrement_index (s.writeBytes _ bs) x
  | storeDigits => exact .inl (by simp)
  | _ => exact .inl rfl

theorem status_of_effect (h : Effect i s t) :
    t.status = s.status ∨ (i = .exit ∧ t.status = .halted) ∨ ∃ k, t = s.raiseIn i k := by
  cases h with
  | halt hi => exact .inr (.inl ⟨hi, rfl⟩)
  | fault k => exact .inr (.inr ⟨k, rfl⟩)
  | loadBlock | storeDigits | storeBlock => exact .inl (by simp)
  | _ => exact .inl rfl

/-- A drawing that touched no pixel has changed nothing; every other has noted a change. -/
theorem State.drawing_cases (s : State) (x y : Reg) (n : Nat) :
    (s.drawing x y n).fb = s.fb ∨ (s.drawing x y n).changed = true := by
  have hkept : ∀ (ps : List (Nat × Nat)) (d : Drawing), d.changed = true →
      (ps.foldl Drawing.touch d).changed = true := by
    intro ps
    induction ps with
    | nil => exact fun _ h => h
    | cons p ps ih => exact fun d _ => ih (d.touch p) rfl
  unfold State.drawing
  cases s.spritePixels x y n with
  | nil => exact .inl rfl
  | cons p ps => exact .inr (hkept ps _ rfl)

/-- Where the screen may be written, it is marked dirty or left as it is. -/
theorem dirty_of_exec (h : exec i s = .next t) :
    (s.dirty = true → t.dirty = true) ∧ (t.dirty = true ∨ ∀ px py, t.pixel px py = s.pixel px py) := by
  by_cases hw : mayWrite i s .dirty
  case neg =>
    have hdirty : t.dirty = s.dirty := (unchangedBut_of_exec h .dirty).resolve_left hw
    exact ⟨fun hd => hdirty.trans hd, .inr ((unchangedBut_of_exec h .screen).resolve_left hw)⟩
  obtain rfl | rfl | rfl | ⟨x, y, n, rfl⟩ := hw
  · obtain rfl := next_inj h
    exact ⟨fun _ => rfl, .inl rfl⟩
  · obtain rfl := next_inj h
    exact ⟨fun _ => rfl, .inl rfl⟩
  · obtain rfl := next_inj h
    exact ⟨fun _ => rfl, .inl rfl⟩
  obtain ⟨_, rfl⟩ | ⟨_, _, rfl⟩ | ⟨_, _, _, rfl⟩ := execDrw_cases h
  · exact ⟨id, .inr fun _ _ => rfl⟩
  · refine ⟨fun hd => by simp [State.drawSprite, hd], ?_⟩
    obtain hfb | hchanged := s.drawing_cases x y n
    · exact .inr fun px py => by simp [State.drawSprite, State.pixel, hfb]
    · exact .inl (by simp [State.drawSprite, hchanged])
  · exact ⟨id, .inr fun _ _ => rfl⟩

end

/-! ### The obligations -/

/-- Settles O45: the table's row of a general register. -/
theorem registersChangeOnlyAsListed : Obligations.RegistersChangeOnlyAsListed :=
  fun _ _ _ r h hne => mayWrite_of_exec (p := .reg r) h hne

/-- Settles O46, by the kinds of effect. -/
theorem pcChangesOnlyAsListed : Obligations.PcChangesOnlyAsListed :=
  fun _ _ _ h => pc_of_effect (effect_of_exec h)

/-- Settles O47: the table's row of `I`, and the mask of every write of it. -/
theorem indexChangesOnlyAsListed : Obligations.IndexChangesOnlyAsListed := fun _ _ _ h hne =>
  ⟨(index_of_effect (effect_of_exec h)).resolve_left hne, mayWrite_of_exec (p := .index) h hne⟩

/-- Settles O48: the table's row of a byte of memory. -/
theorem memoryChangesOnlyInTheStoredBlock : Obligations.MemoryChangesOnlyInTheStoredBlock :=
  fun _ _ _ a h hne => mayWrite_of_exec (p := .byteAt a) h hne

/-- Settles O49: the instructions that may write the screen set `dirty`, or leave every pixel as it was. -/
theorem screenChangesAreMarkedDirty : Obligations.ScreenChangesAreMarkedDirty := by
  intro i s t h
  obtain ⟨hkept, hmarked⟩ := dirty_of_exec h
  refine ⟨hkept, fun ⟨px, py, hne⟩ => ⟨hmarked.resolve_right fun hsame => hne (hsame px py), ?_⟩⟩
  exact mayWrite_of_exec (p := .screen) h fun hsame => hne (hsame px py)

theorem dialect_of_low_or_high {i : Instr} {s t : State} (hi : i = .low ∨ i = .high) (h : exec i s = .next t) :
    t.dialect = .schip := by
  obtain rfl | rfl := hi <;> obtain rfl := next_inj h <;> rfl

theorem gate_of_drw {x y : Reg} {n : Nat} {s t : State} (h : exec (.drw x y n) s = .next t) :
    t.gateOpen = s.gateOpen ∨ t.gateOpen = false := by
  obtain ⟨_, rfl⟩ | ⟨_, _, rfl⟩ | ⟨_, _, _, rfl⟩ := execDrw_cases h
  · exact .inl rfl
  · exact .inr rfl
  · exact .inl rfl

/-- Settles O50: the table's rows of the stack, the timers, the dialect, the resolution and the gate. -/
theorem controlStateChangesOnlyAsListed : Obligations.ControlStateChangesOnlyAsListed := by
  intro i s t h
  refine ⟨fun hne => ?_, fun hne => mayWrite_of_exec (p := .delay) h hne,
    fun hne => mayWrite_of_exec (p := .sound) h hne, fun hne => ?_, fun hne => ?_⟩
  · exact mayWrite_of_exec (p := .callStack) h (not_and_or.2 hne)
  · have hi : i = .low ∨ i = .high :=
      hne.elim (mayWrite_of_exec (p := .dialect) h) (mayWrite_of_exec (p := .hires) h)
    exact ⟨hi, dialect_of_low_or_high hi h⟩
  · obtain ⟨x, y, n, rfl⟩ := mayWrite_of_exec (p := .gate) h hne
    exact ⟨(gate_of_drw h).resolve_left hne, x, y, n, rfl⟩

/-- Settles O51: the table has no instruction for these parts. -/
theorem hostStateIsNotWrittenByInstructions : Obligations.HostStateIsNotWrittenByInstructions := by
  intro i s t h
  refine ⟨(unchangedBut_of_exec h).mono ?_, fun hne => ?_⟩
  · rintro _ hw (rfl | rfl | rfl | rfl | rfl) <;> exact hw
  · obtain hsame | hexit | ⟨k, rfl⟩ := status_of_effect (effect_of_exec h)
    · exact absurd hsame hne
    · exact .inr hexit
    · exact .inl rfl

end Sys2Proof.Machine
end

section
/-! PROOFS. The sprite engine: which pixels a DXYN covers, and what drawing does to them (`44_draw.md` section 3). -/

open Sys2Proof.Claims

namespace Sys2Proof.Machine

variable {s : State} {x y : Reg} {n px py : Nat}

/-! ### The covered pixels -/

theorem edgeMode_eq_wrap_iff (s : State) : s.edgeMode = .wrap ↔ wrapsAtEdge s := by
  unfold State.edgeMode wrapsAtEdge
  split <;> simp [*]

theorem place_eq_some_iff (a b : Nat) : s.place a b = some (px, py) ↔ px < s.width ∧ py < s.height ∧
    ((wrapsAtEdge s ∧ px = a % s.width ∧ py = b % s.height) ∨ (¬wrapsAtEdge s ∧ px = a ∧ py = b)) := by
  rw [← edgeMode_eq_wrap_iff]
  constructor
  · intro h
    obtain ⟨hx, hy, ⟨hmode, h⟩ | ⟨hmode, h⟩⟩ := s.place_cases h
    · exact ⟨hx, hy, .inl ⟨hmode, h⟩⟩
    · exact ⟨hx, hy, .inr ⟨by simp [hmode], h⟩⟩
  · rintro ⟨hx, hy, ⟨hmode, rfl, rfl⟩ | ⟨hmode, rfl, rfl⟩⟩
    · simp [State.place, hmode]
    · have hclip : s.edgeMode = .clip := by
        cases hm : s.edgeMode with
        | wrap => exact absurd hm hmode
        | clip => rfl
      simp [State.place, hclip, hx, hy]

/-- What a sprite covers is what the model touches. -/
theorem covers_iff_mem : covers s x y n px py ↔ (px, py) ∈ s.spritePixels x y n := by
  rw [State.mem_spritePixels]
  simp only [place_eq_some_iff]
  constructor
  · rintro ⟨hx, hy, row, col, hrow, hcol, hbit, hlands⟩
    exact ⟨row, col, hrow, hcol, hbit, hx, hy, hlands⟩
  · rintro ⟨row, col, hrow, hcol, hbit, hx, hy, hlands⟩
    exact ⟨hx, hy, row, col, hrow, hcol, hbit, hlands⟩

/-! ### What drawing does to them -/

theorem spritePixels_stored : ∀ p ∈ s.spritePixels x y n, p.1 < 128 ∧ p.2 < 64 := by
  intro p hp
  obtain ⟨h1, h2⟩ := s.spritePixels_bounds hp
  exact ⟨h1.trans_le s.width_le, h2.trans_le s.height_le⟩

theorem pixel_drawSprite (hn : n ≤ 15) (a b : Nat) :
    (s.drawSprite x y n).pixel a b = (s.pixel a b ^^ decide ((a, b) ∈ s.spritePixels x y n)) := by
  obtain ⟨hpixels, -, -⟩ := foldl_touch _ ⟨s.fb, false, false⟩ (s.nodup_spritePixels x y hn) spritePixels_stored
  exact hpixels a b

theorem pixel_drawSprite_of_covers (hn : n ≤ 15) (h : covers s x y n px py) :
    (s.drawSprite x y n).pixel px py = !s.pixel px py := by
  simp [pixel_drawSprite hn, covers_iff_mem.1 h]

theorem pixel_drawSprite_of_not_covers (hn : n ≤ 15) (h : ¬covers s x y n px py) :
    (s.drawSprite x y n).pixel px py = s.pixel px py := by
  simp [pixel_drawSprite hn, mt covers_iff_mem.2 h]

theorem collision_iff (hn : n ≤ 15) :
    (s.drawing x y n).coll = true ↔ ∃ px py, covers s x y n px py ∧ s.pixel px py = true := by
  obtain ⟨-, hcoll, -⟩ := foldl_touch _ ⟨s.fb, false, false⟩ (s.nodup_spritePixels x y hn) spritePixels_stored
  simp only [State.drawing, hcoll, Bool.false_or, List.any_eq_true, Prod.exists, covers_iff_mem]
  rfl

theorem changed_iff (hn : n ≤ 15) : (s.drawing x y n).changed = true ↔ ∃ px py, covers s x y n px py := by
  obtain ⟨-, -, hchanged⟩ := foldl_touch _ ⟨s.fb, false, false⟩ (s.nodup_spritePixels x y hn) spritePixels_stored
  simp only [State.drawing, hchanged, covers_iff_mem, Bool.false_or, Bool.not_eq_true',
    List.isEmpty_eq_false_iff_exists_mem, Prod.exists]

/-- VF is the collision flag, though VF may have been a coordinate. -/
theorem reg_VF_drawSprite (s : State) (x y : Reg) (n : Nat) :
    (s.drawSprite x y n).reg VF = flagByte (s.drawing x y n).coll := by
  simp only [State.drawSprite, State.setDirty_reg, State.reg_setReg_self]

theorem flag_of_collision (hn : n ≤ 15) (h : ∃ px py, covers s x y n px py ∧ s.pixel px py = true) :
    (s.drawSprite x y n).reg VF = 1 := by
  rw [reg_VF_drawSprite, (collision_iff hn).2 h]
  rfl

theorem flag_of_no_collision (hn : n ≤ 15) (h : ¬∃ px py, covers s x y n px py ∧ s.pixel px py = true) :
    (s.drawSprite x y n).reg VF = 0 := by
  rw [reg_VF_drawSprite, eq_false_of_ne_true (mt (collision_iff hn).1 h)]
  rfl

theorem dirty_drawSprite (hn : n ≤ 15) :
    (s.drawSprite x y n).dirty = true ↔ s.dirty = true ∨ ∃ px py, covers s x y n px py := by
  rw [← changed_iff hn, ← Bool.or_eq_true]
  rfl

/-! ### The obligations -/

/-- With the gate open and the sprite inside memory the draw executes. -/
theorem exec_drw_of_open (hgate : s.gateOpen = true) (hrange : n = 0 ∨ s.i.toNat + n ≤ 4096) :
    exec (.drw x y n) s = .next (s.drawSprite x y n) := by
  have hok : rangeOk (s.effAddr 0) n = true := (rangeOk_iff _ _).2 hrange
  simp [exec, execDrw, hgate, hok]

/-- Settles O38: the positions the model touches are the covered pixels, each touched once. -/
theorem drawInvertsTheCoveredPixels : Obligations.DrawInvertsTheCoveredPixels := fun s x y n hn hgate hrange =>
  ⟨s.drawSprite x y n, exec_drw_of_open hgate hrange, fun _ _ => pixel_drawSprite_of_covers hn,
    fun _ _ => pixel_drawSprite_of_not_covers hn, flag_of_collision hn, flag_of_no_collision hn, dirty_drawSprite hn,
    rfl, unchangedBut_drawSprite s x y n⟩

/-- The state between two draws of S7: the gate open again and any value in VF. -/
def betweenDraws (s : State) (x y : Reg) (n : Nat) (f : Byte) : State :=
  (gateOpenEvent (s.drawSprite x y n)).setReg VF f

/-- While the coordinate registers read the same, the second sprite covers what the first did. -/
theorem covers_betweenDraws {f : Byte} (hx : (betweenDraws s x y n f).reg x = s.reg x)
    (hy : (betweenDraws s x y n f).reg y = s.reg y) :
    covers (betweenDraws s x y n f) x y n px py ↔ covers s x y n px py := by
  simp only [covers, lands, hx, hy]
  rfl

/-- Settles O39: the second draw inverts the same pixels back. -/
theorem drawingTwiceRestoresTheScreen : Obligations.DrawingTwiceRestoresTheScreen := by
  intro s x y n hn hgate hrange
  refine ⟨s.drawSprite x y n, exec_drw_of_open hgate hrange, fun hblank => ?_, fun f hx hy => ?_⟩
  · exact flag_of_no_collision hn fun ⟨px, py, _, hlit⟩ => by simp [hblank] at hlit
  have hcov : ∀ px py, covers (betweenDraws s x y n f) x y n px py ↔ covers s x y n px py := fun _ _ =>
    covers_betweenDraws hx hy
  refine ⟨(betweenDraws s x y n f).drawSprite x y n, exec_drw_of_open rfl hrange, fun px py => ?_, ?_⟩
  · by_cases h : covers s x y n px py
    · rw [pixel_drawSprite_of_covers hn ((hcov px py).2 h)]
      exact (congrArg _ (pixel_drawSprite_of_covers hn h)).trans (Bool.not_not _)
    · rw [pixel_drawSprite_of_not_covers hn (mt (hcov px py).1 h)]
      exact pixel_drawSprite_of_not_covers hn h
  · rintro ⟨px, py, h, hoff⟩
    refine flag_of_collision hn ⟨px, py, (hcov px py).2 h, ?_⟩
    exact (pixel_drawSprite_of_covers hn h).trans (by rw [hoff]; rfl)

end Sys2Proof.Machine
end

section
/-! PROOFS. Slots and steps: which event comes, how a slot goes, and that a fault is precise (`30_encoding.md` R70,
`60_exceptions.md` section 2). -/

open Sys2Proof.Claims

namespace Sys2Proof.Machine

variable {s t : State}

/-! ### How a slot and a step go -/

/-- The word two bytes in memory order make. -/
theorem wordOfBytes_toNat (first second : Byte) :
    (wordOfBytes first second).toNat = 0x100 * first.toNat + second.toNat :=
  (wordOfBytes_eq_iff first second _).1 rfl

/-- The word the slot of `s` fetches, where it fetches one. -/
def fetchedWord (s : State) : Word := wordOfBytes (s.readByte s.pc.toNat) (s.readByte (s.pc.toNat + 1))

theorem slot_eq_runWord (hrun : s.status = .running) (hpow : s.inputs.powerOffReq = false) (hpc : s.pc.toNat ≤ 4094) :
    slot s = runWord (fetchedWord s) s.advance :=
  slot_of_fetched hrun hpow hpc (wordOfBytes_toNat _ _)

theorem slot_of_not_running (h : s.status ≠ .running) : slot s = .next s := by
  obtain ⟨_, hslot⟩ | ⟨hrun, _⟩ | ⟨hrun, _⟩ | ⟨hrun, _⟩ := slot_cases s
  · exact hslot
  all_goals exact absurd hrun h

/-- What a slot that answers `t` did. -/
theorem slot_next_cases (h : slot s = .next t) :
    (s.status ≠ .running ∧ t = s) ∨ (s.status = .running ∧ t = s.setStatus .halted) ∨
    (s.status = .running ∧ 4095 ≤ s.pc.toNat ∧ t = s.raiseFetch) ∨
    (s.status = .running ∧ s.pc.toNat ≤ 4094 ∧
      ((∃ i, decodeWord (fetchedWord s) = .ok i ∧ exec i s.advance = .next t) ∨
        t = s.advance.doUnknown (fetchedWord s))) := by
  obtain ⟨hstop, hslot⟩ | ⟨hrun, _, hslot⟩ | ⟨hrun, _, hpc, hslot⟩ | ⟨hrun, _, hpc, hslot⟩ := slot_cases s <;>
    rw [hslot] at h
  · exact .inl ⟨hstop, next_inj h⟩
  · exact .inr (.inl ⟨hrun, next_inj h⟩)
  · exact .inr (.inr (.inl ⟨hrun, hpc, next_inj h⟩))
  · refine .inr (.inr (.inr ⟨hrun, hpc, ?_⟩))
    cases hdec : decodeWord (fetchedWord s) with
    | ok i => exact .inl ⟨i, rfl, by rwa [← runWord_ok hdec]⟩
    | error e => exact .inr (next_inj (runWord_error hdec _ ▸ h))

theorem runWord_total (w : Word) (s : State) : ∃ t, runWord w s = .next t := by
  cases hdec : decodeWord w with
  | ok i =>
    rw [runWord_ok hdec]
    exact exec_total i s
  | error e => exact ⟨_, runWord_error hdec s⟩

theorem slot_total (s : State) : ∃ t, slot s = .next t := by
  obtain ⟨_, hslot⟩ | ⟨_, _, hslot⟩ | ⟨_, _, _, hslot⟩ | ⟨_, _, _, hslot⟩ := slot_cases s <;> rw [hslot]
  · exact ⟨_, rfl⟩
  · exact ⟨_, rfl⟩
  · exact ⟨_, rfl⟩
  · exact runWord_total _ _

/-- Settles O11: no event, slot or instruction stops the model. -/
theorem everyStepAnswersNext : Obligations.EveryStepAnswersNext := by
  intro s
  unfold step
  cases s.nextEvent.1 with
  | slot => exact slot_total _
  | _ => exact ⟨_, rfl⟩

/-- Settles O6, by what the schedule and what follows it are. -/
theorem stepTakesTheNextScheduledEvent : Obligations.StepTakesTheNextScheduledEvent := by
  intro s
  refine ⟨fun e rest hq => ?_, fun hq hb => ?_, fun k hq hb => ?_⟩
  · simp [step, State.nextEvent, hq]
  · simp [step, State.nextEvent, hq, hb, hostEvent]
  · simp [step, State.nextEvent, hq, hb]

/-- Settles O7: the two tests come before the fetch. -/
theorem slotTestsStatusThenPowerOff : Obligations.SlotTestsStatusThenPowerOff := by
  refine fun s => ⟨slot_of_not_running, fun hrun hpow => ?_⟩
  simp [slot, hrun, hpow, State.setStatus]

/-- Settles O8: the fetch fails exactly where it would read past the last byte. -/
theorem fetchFaultsAtEndOfMemory : Obligations.FetchFaultsAtEndOfMemory := by
  refine fun s hrun hpow => ⟨fun hpc => ?_, fun hpc => ⟨_, s.fetch_eq_some hpc, wordOfBytes_toNat _ _⟩⟩
  simp [slot, hrun, hpow, (s.fetch_eq_none_iff).2 hpc]
  rfl

/-! ### Holds -/

theorem firstReleased_eq_none_iff (s : State) :
    s.firstReleased = none ↔ ∀ k < 16, s.inputs.keysReleased.getLsbD k = false := by
  simp [State.firstReleased, State.keyReleased, List.find?_eq_none]

theorem exec_ldVxK_of_none {x : Reg} (h : ∀ k < 16, s.inputs.keysReleased.getLsbD k = false) :
    exec (.ldVxK x) s = .next s.hold := by
  simp [exec, execLdVxK, (firstReleased_eq_none_iff s).2 h]

theorem exec_drw_of_shut {x y : Reg} {n : Nat} (h : s.gateOpen = false) : exec (.drw x y n) s = .next s.hold := by
  simp [exec, execDrw, h]

/-- Settles O10: the hold takes back the 2 the slot has added to `pc`. -/
theorem heldSlotChangesNothing : Obligations.HeldSlotChangesNothing := by
  intro s i hrun hpow hpc hdec hheld
  rw [slot_eq_runWord hrun hpow hpc, runWord_ok (w := fetchedWord s) hdec]
  refine Eq.trans ?_ (congrArg Host.Outcome.next s.hold_advance)
  obtain ⟨⟨x, rfl⟩, hkeys⟩ | ⟨⟨x, y, n, rfl⟩, hgate⟩ := hheld
  · exact exec_ldVxK_of_none fun k _ => by simp [hkeys]
  · exact exec_drw_of_shut hgate

/-! ### Faults -/

theorem FaultKind.code_bounds (k : FaultKind) : 1 ≤ k.code.toNat ∧ k.code.toNat ≤ 4 := by
  cases k <;> simp [FaultKind.code]

/-- Settles O9: the report is written under both policies, the fault record under `Halt` alone. -/
theorem unknownOpcodeIsReported : Obligations.UnknownOpcodeIsReported := by
  intro s w
  unfold State.doUnknown
  refine ⟨?_, ?_, ?_, fun hp => ?_, fun hp => ?_⟩
  · split <;> rfl
  · split <;> rfl
  · split <;> rfl
  · simp only [hp]
    exact unchangedBut_reportUnknown s w
  · simp only [hp]
    exact ⟨⟨rfl, rfl, rfl, rfl, rfl⟩, (unchangedBut_reportUnknown s w).trans (unchangedBut_raise _ _ _ _)⟩

theorem unchangedBut_advance (s : State) : UnchangedBut justPc s s.advance := unchangedBut_setPc s _

/-- A fault in execute: the record names the slot's own address and word. -/
theorem raiseIn_advance {i : Instr} {w : Word} (hdec : decodeWord w = .ok i) (k : FaultKind) :
    s.advance.raiseIn i k = s.advance.raise k s.pc w := by
  rw [State.raiseIn_eq, (isWordOf_of_decodeWord hdec).2, State.advance_pc, BitVec.add_sub_cancel]

theorem doUnknown_advance_of_faulted {w : Word} (hrun : s.status = .running)
    (hfault : (s.advance.doUnknown w).status = .faulted) : s.params.unknownPolicy = .halt ∧
      s.advance.doUnknown w = (s.advance.reportUnknown w).raise .unknownOpcode s.pc w := by
  unfold State.doUnknown at hfault ⊢
  split at hfault
  next => simp [hrun] at hfault
  next hp =>
    refine ⟨hp, ?_⟩
    simp only [State.advance_pc, BitVec.add_sub_cancel]

/-- Settles O54, by the three places a slot can fault in: the fetch, the decode and the execution. -/
theorem faultsArePrecise : Obligations.FaultsArePrecise := by
  intro s t h hrun hfault
  obtain ⟨hstop, _⟩ | ⟨_, rfl⟩ | ⟨_, hpc, rfl⟩ | ⟨_, hpc, ⟨i, hdec, hexec⟩ | rfl⟩ := slot_next_cases h
  · exact absurd hrun hstop
  · simp at hfault
  · refine ⟨rfl, (FaultKind.code_bounds _).1, (FaultKind.code_bounds _).2, .inl ⟨hpc, rfl, rfl⟩, ?_⟩
    exact (unchangedBut_raise s _ _ _).mono fun _ hp => .inr (.inl hp)
  · obtain hsame | ⟨_, hhalt⟩ | ⟨k, rfl⟩ := status_of_effect (effect_of_exec hexec)
    · simp [hsame, hrun] at hfault
    · simp [hhalt] at hfault
    rw [raiseIn_advance hdec]
    refine ⟨rfl, k.code_bounds.1, k.code_bounds.2, .inr ⟨hpc, rfl, wordOfBytes_toNat _ _⟩, ?_⟩
    exact ((unchangedBut_advance s).trans (unchangedBut_raise _ _ _ _)).mono fun _ => (·.imp_right .inl)
  · obtain ⟨hpolicy, heq⟩ := doUnknown_advance_of_faulted hrun hfault
    rw [heq]
    refine ⟨rfl, (FaultKind.code_bounds _).1, (FaultKind.code_bounds _).2, .inr ⟨hpc, rfl, wordOfBytes_toNat _ _⟩, ?_⟩
    refine (((unchangedBut_advance s).trans (unchangedBut_reportUnknown _ _)).trans
      (unchangedBut_raise _ _ _ _)).mono ?_
    rintro p ((hp | hp) | hp)
    · exact .inl hp
    · exact .inr (.inr ⟨hp, hpolicy, rfl⟩)
    · exact .inr (.inl hp)

end Sys2Proof.Machine
end

section
/-! PROOFS. The invariant: the reset state meets it, and every event keeps it (`10_state.md` R25, R26, R33, R34, R40,
R41). -/

open Sys2Proof.Claims

namespace Sys2Proof.Machine

variable {s t : State}

/-! ### Reset -/

/-- Settles O59: every bound is met by a zero, and memory lists no cell. -/
theorem resetStateMeetsTheInvariant : Obligations.ResetStateMeetsTheInvariant where
  memory := wf_reset
  index := by decide
  pc := by decide
  stack k := by simp [State.reset]
  screen x y _ := pixelOf_blank x y
  resolution _ := rfl
  notFaulted _ := ⟨rfl, rfl, rfl, rfl⟩
  faulted h := by cases h
  report _ := ⟨rfl, rfl⟩

theorem inv_resetEvent (rom : List Byte) (s : State) : (resetEvent rom s).Inv :=
  { resetStateMeetsTheInvariant with memory := wf_romCells s.params rom }

theorem background_font (p : Config.Params) (j : Fin 80) :
    background p (p.fontBase.addr + j.val) = p.fontTable[j.val] := by
  simp [background]

theorem background_outside {p : Config.Params} {a : Nat} (h : a < p.fontBase.addr ∨ p.fontBase.addr + 80 ≤ a) :
    background p a = 0 := by
  unfold background
  split
  · have hout : ¬a - p.fontBase.addr < 80 := by omega
    simp [hout]
  · rfl

theorem fontBase_addr_le (b : Config.FontBase) : b.addr ≤ 0x50 := by cases b <;> decide

theorem readByte_resetEvent_below {rom : List Byte} {a : Nat} (h : a < 0x200) :
    (resetEvent rom s).readByte a = background s.params a :=
  Memory.read_cellsFrom_lt _ h

theorem readByte_resetEvent_rom (rom : List Byte) (k : Nat) :
    (resetEvent rom s).readByte (0x200 + k) = ((rom.take 3584)[k]?).getD (background s.params (0x200 + k)) :=
  Memory.read_cellsFrom _ _ k

theorem readByte_resetEvent_other {rom : List Byte} {a : Nat}
    (hfont : a < s.params.fontBase.addr ∨ s.params.fontBase.addr + 80 ≤ a)
    (hrom : a < 0x200 ∨ 0x200 + min rom.length 3584 ≤ a) : (resetEvent rom s).readByte a = 0 := by
  rcases Nat.lt_or_ge a 0x200 with hlow | hhigh
  · rw [readByte_resetEvent_below hlow, background_outside hfont]
  · obtain ⟨k, rfl⟩ := Nat.exists_eq_add_of_le hhigh
    have hlen : (rom.take 3584).length ≤ k := by
      rw [List.length_take]
      omega
    rw [readByte_resetEvent_rom, List.getElem?_eq_none hlen, Option.getD_none, background_outside hfont]

/-- Settles O58: every field is the reset value, and memory is the font, the ROM and zeros. -/
theorem resetRebuildsTheCore : Obligations.ResetRebuildsTheCore := by
  intro s rom
  have hfont := fontBase_addr_le s.params.fontBase
  refine ⟨resetEvent rom s, rfl, fun x => ?_, rfl, rfl, rfl, fun k => ?_, rfl, rfl, rfl, rfl, pixelOf_blank, rfl, rfl, rfl,
    rfl, rfl, rfl, rfl, rfl, rfl, rfl, ?_, fun j => ?_, fun j hj hcut => ?_, fun a => readByte_resetEvent_other, rfl, rfl,
    inv_resetEvent rom s⟩
  · simp [resetEvent, resetState, State.reset, State.reg]
  · simp [resetEvent, resetState, State.reset]
  · simp [resetEvent, resetState, Config.romMax]
  · rw [readByte_resetEvent_below (by omega), background_font]
  · simp [readByte_resetEvent_rom, hcut, hj]

/-! ### Instructions -/

/-- The general registers and the sample count are free. -/
theorem inv_registers (h : s.Inv) (v : Vector Byte 16) (c : Nat) : ({ s with v := v, rngCount := c } : State).Inv :=
  { h with }

theorem inv_setIndex (h : s.Inv) (n : Nat) : (s.setIndex n).Inv :=
  { h with index := s.setIndex_le n }

theorem inv_autoIncrement (h : s.Inv) (x : Reg) : (s.autoIncrement x).Inv := by
  obtain ⟨_, heq⟩ | ⟨_, heq⟩ := s.autoIncrement_cases x <;> rw [heq]
  · exact inv_setIndex h _
  · exact h

theorem inv_writeBytes (h : s.Inv) (a : Nat) (bs : List Byte) (hend : a + bs.length ≤ Config.memSize) :
    (s.writeBytes a bs).Inv := by
  have hmem := s.wf_writeBytes h.memory a bs hend
  obtain ⟨m, hm⟩ := s.writeBytes_eq a bs
  rw [hm] at hmem ⊢
  exact { h with memory := hmem }

theorem inv_raise (h : s.Inv) (k : FaultKind) (a w : Word) : (s.raise k a w).Inv :=
  { h with
    notFaulted := fun hne => absurd rfl hne
    faulted := fun _ => k.code_bounds }

theorem inv_setPc (h : s.Inv) {a : Word} (ha : a.toNat ≤ 0x10FE) : (s.setPc a).Inv :=
  { h with pc := ha }

theorem inv_drawSprite (h : s.Inv) {x y : Reg} {n : Nat} (hn : n ≤ 15) : (s.drawSprite x y n).Inv := by
  refine { h with screen := fun px py hout => ?_ }
  have hcov : ¬covers s x y n px py := fun ⟨hx, hy, _⟩ => hout.elim (absurd hx ∘ Nat.not_lt.2) (absurd hy ∘ Nat.not_lt.2)
  rw [pixel_drawSprite_of_not_covers hn hcov]
  exact h.screen px py hout

/-- What a slot gives the instruction it runs: a running core and `pc` just past the word. -/
theorem inv_of_effect {i : Instr} (h : s.Inv) (hwf : i.wellFormed = true) (hrun : s.status = .running)
    (hlow : 2 ≤ s.pc.toNat) (hhigh : s.pc.toNat ≤ 4096) (heff : Effect i s t) : t.Inv := by
  have hrecord := h.notFaulted (by simp [hrun])
  cases heff with
  | stay hi => exact h
  | skip hi => exact inv_setPc h (by bv_omega)
  | hold hi => exact inv_setPc h (by bv_omega)
  | jump a hi ha => exact inv_setPc h ha
  | ret hi hs => exact { h with pc := (h.stack ⟨s.sp.val - 1, by omega⟩).trans (by decide) }
  | call nnn hi hs =>
    refine { h with pc := ?_, stack := fun k => ?_ }
    · exact addressTarget_le nnn
    · rw [Vector.getElem_set]
      split
      · exact hhigh
      · exact h.stack k
  | load x b hi => exact inv_registers h _ _
  | loadFlag x b f hi hf => exact inv_registers h _ _
  | sample x nn b hi => exact inv_registers h _ _
  | loadBlock x f hi => exact inv_autoIncrement (inv_registers h _ s.rngCount) x
  | index n hi => exact inv_setIndex h n
  | storeDigits x bs hi hlen hend =>
    have hblock : s.i.toNat + bs.length ≤ Config.memSize := by rw [hlen, Config.memSize]; omega
    exact inv_writeBytes h _ bs hblock
  | storeBlock x bs hi hlen hend =>
    have hblock : s.i.toNat + bs.length ≤ Config.memSize := by rw [hlen, Config.memSize]; omega
    exact inv_autoIncrement (inv_writeBytes h _ bs hblock) x
  | delay x b hi => exact { h with }
  | sound x b hi => exact { h with }
  | clear hi => exact { h with screen := fun x y _ => pixelOf_blank x y }
  | resolution hires hi =>
    exact { h with
      screen := fun x y _ => pixelOf_blank x y
      resolution := fun hd => by cases hd }
  | halt hi => exact { h with notFaulted := fun _ => hrecord, faulted := fun hf => by cases hf }
  | draw x y n hi hgate =>
    subst hi
    exact inv_drawSprite h (of_decide_eq_true hwf)
  | fault k => exact inv_raise h k _ _

/-! ### Slots and steps -/

theorem inv_advance (h : s.Inv) (hpc : s.pc.toNat ≤ 4094) : s.advance.Inv := inv_setPc h (by bv_omega)

theorem inv_doUnknown (h : s.Inv) (w : Word) : (s.doUnknown w).Inv := by
  have hreport : (s.reportUnknown w).Inv := { h with report := fun hf => by cases hf }
  unfold State.doUnknown
  split
  · exact hreport
  · exact inv_raise hreport _ _ _

theorem inv_slot (h : s.Inv) (hslot : slot s = .next t) : t.Inv := by
  obtain ⟨_, rfl⟩ | ⟨hrun, rfl⟩ | ⟨_, _, rfl⟩ | ⟨hrun, hpc, ⟨i, hdec, hexec⟩ | rfl⟩ := slot_next_cases hslot
  · exact h
  · exact { h with notFaulted := fun _ => h.notFaulted (by simp [hrun]), faulted := fun hf => by cases hf }
  · exact inv_raise h _ _ _
  · have hadv : s.advance.pc.toNat = s.pc.toNat + 2 := by rw [State.advance_pc]; bv_omega
    exact inv_of_effect (inv_advance h hpc) (isWordOf_of_decodeWord hdec).1 hrun (by omega) (by omega)
      (effect_of_exec hexec)
  · exact inv_doUnknown (inv_advance h hpc) _

theorem inv_nextEvent (h : s.Inv) : s.nextEvent.2.Inv := by
  obtain ⟨q, b, hnext⟩ := nextEvent_state s
  rw [hnext]
  exact { h with }

/-- Settles O60, event by event. -/
theorem stepKeepsTheInvariant : Obligations.StepKeepsTheInvariant := by
  intro s t h hstep
  have hnext := inv_nextEvent h
  unfold step at hstep
  cases he : s.nextEvent.1 <;> rw [he] at hstep
  case slot => exact inv_slot hnext hstep
  case reset rom => exact next_inj hstep ▸ inv_resetEvent rom _
  case timerTick => exact next_inj hstep ▸ { hnext with }
  case gateOpen => exact next_inj hstep ▸ { hnext with }
  case dirtyAck => exact next_inj hstep ▸ { hnext with }
  case inputChange levels => exact next_inj hstep ▸ { hnext with }

end Sys2Proof.Machine
end

section
/-! PROOFS. The events from outside, and what a step can do in `Halted`, in `Faulted` and to the dialect
(`60_exceptions.md` R207, R215, `70_reset_and_hazards.md` R253). -/

open Sys2Proof.Claims

namespace Sys2Proof.Machine

variable {s t : State}

/-! ### What each event leaves unchanged -/

theorem unchangedBut_timerTick (s : State) : UnchangedBut (fun p => p = .delay ∨ p = .sound) s (timerTick s) :=
  (unchangedBut_setDelay s _).trans (unchangedBut_setSound _ _)

theorem unchangedBut_nextEvent (s : State) : UnchangedBut (fun p => p = .schedule) s s.nextEvent.2 := by
  obtain ⟨q, b, hnext⟩ := nextEvent_state s
  rw [hnext]
  exact unchangedBut_schedule s q b

/-- The parts the events other than slots and Reset write. -/
def outsideParts (p : Part) : Prop := p = .delay ∨ p = .sound ∨ p = .gate ∨ p = .dirty ∨ p = .inputs

/-- In a core that is not running every event but Reset writes such parts alone. -/
theorem unchangedBut_hostEvent_of_stopped {e : Config.HostEvent} (hstop : s.status ≠ .running)
    (hreset : ∀ rom, e ≠ .reset rom) (h : hostEvent e s = .next t) : UnchangedBut outsideParts s t := by
  cases e with
  | slot =>
    obtain rfl := next_inj (h.symm.trans (slot_of_not_running hstop)).symm
    exact .refl _ t
  | timerTick =>
    obtain rfl := next_inj h
    exact (unchangedBut_timerTick s).mono fun _ => (·.imp_right .inl)
  | gateOpen =>
    obtain rfl := next_inj h
    exact (unchangedBut_setGate s true).mono fun _ hp => .inr (.inr (.inl hp))
  | dirtyAck =>
    obtain rfl := next_inj h
    exact (unchangedBut_setDirty s false).mono fun _ hp => .inr (.inr (.inr (.inl hp)))
  | inputChange levels =>
    obtain rfl := next_inj h
    exact (unchangedBut_inputs s levels).mono fun _ hp => .inr (.inr (.inr (.inr hp)))
  | reset rom => exact absurd rfl (hreset rom)

/-- Settles O55: the slots of a stopped core do nothing, and no other event but Reset writes `status`. -/
theorem stoppedCoreKeepsItsStateUntilReset : Obligations.StoppedCoreKeepsItsStateUntilReset := by
  intro s t hstep hstop
  have hsched := unchangedBut_nextEvent s
  refine ⟨fun hreset => ?_, fun rom hrom => ?_⟩
  · have hstop' : s.nextEvent.2.status ≠ .running := by
      rwa [show s.nextEvent.2.status = s.status from (hsched .status).resolve_left (by simp)]
    refine (hsched.trans (unchangedBut_hostEvent_of_stopped hstop' hreset hstep)).mono ?_
    rintro _ (rfl | rfl | rfl | rfl | rfl | rfl) <;> simp
  · rw [step, hrom] at hstep
    obtain rfl := next_inj hstep
    rfl

/-! ### The dialect -/

theorem dialect_of_exec {i : Instr} (h : exec i s = .next t) (hd : s.dialect = .schip) : t.dialect = .schip := by
  obtain hi | hsame := unchangedBut_of_exec h .dialect
  · exact dialect_of_low_or_high hi h
  · exact Eq.trans hsame hd

theorem dialect_of_slot (h : slot s = .next t) (hd : s.dialect = .schip) : t.dialect = .schip := by
  obtain ⟨_, rfl⟩ | ⟨_, rfl⟩ | ⟨_, _, rfl⟩ | ⟨_, _, ⟨i, _, hexec⟩ | rfl⟩ := slot_next_cases h
  · exact hd
  · exact hd
  · exact hd
  · exact dialect_of_exec hexec hd
  · exact Eq.trans ((unchangedBut_doUnknown s.advance _ .dialect).resolve_left (by simp [faultParts])) hd

/-- Settles O56: only 00FE and 00FF write the dialect in a slot, and both set SCHIP. -/
theorem onlyResetLeavesSchip : Obligations.OnlyResetLeavesSchip := by
  intro s t hstep hd hreset
  have hd' : s.nextEvent.2.dialect = .schip := Eq.trans ((unchangedBut_nextEvent s .dialect).resolve_left (by simp)) hd
  unfold step at hstep
  cases he : s.nextEvent.1 <;> rw [he] at hstep
  case slot => exact dialect_of_slot hstep hd'
  case reset rom => exact absurd he (hreset rom)
  all_goals exact next_inj hstep ▸ hd'

/-! ### One event each -/

/-- Settles O57: each event is one update of one field. -/
theorem outsideEventsWriteOneThing : Obligations.OutsideEventsWriteOneThing := fun s =>
  ⟨⟨_, rfl, rfl, unchangedBut_setGate s true⟩, ⟨_, rfl, rfl, unchangedBut_setDirty s false⟩,
    fun levels => ⟨_, rfl, rfl, unchangedBut_inputs s levels⟩⟩

theorem timerTick_dt (s : State) : (timerTick s).dt.toNat = s.dt.toNat - 1 := tickCounter_toNat s.dt

theorem timerTick_st (s : State) : (timerTick s).st.toNat = s.st.toNat - 1 := tickCounter_toNat s.st

/-- Settles O43: the truncated difference of a counter and 1. -/
theorem timerTickDecrementsTowardZero : Obligations.TimerTickDecrementsTowardZero := by
  intro s
  have hdt := timerTick_dt s
  have hst := timerTick_st s
  refine ⟨timerTick s, rfl, ?_, ?_, ?_, ?_, unchangedBut_timerTick s⟩ <;> omega

/-- Settles O44, by induction on the number of ticks. -/
theorem countersReachZeroAndStay : Obligations.CountersReachZeroAndStay := by
  intro n
  induction n with
  | zero => exact fun _ => ⟨rfl, rfl⟩
  | succ n ih =>
    intro s
    obtain ⟨hdt, hst⟩ := ih (timerTick s)
    rw [timerTick_dt] at hdt
    rw [timerTick_st] at hst
    exact ⟨by rw [ticks, hdt]; omega, by rw [ticks, hst]; omega⟩

end Sys2Proof.Machine
end

section
/-! PROOFS. The stack and the block instructions on memory (`10_state.md` R28 to R30, `43_index_memory.md` R153 to R156),
and the faults of execute (`60_exceptions.md` R201 to R203). -/

open Sys2Proof.Claims

namespace Sys2Proof.Machine

variable {s : State}

/-! ### The stack -/

theorem sp_of_push {v : Word} {t : State} (h : s.push v = some t) : t.sp.val = s.sp.val + 1 := by
  obtain ⟨hs, rfl⟩ := s.push_cases h
  rfl

theorem pushAll_of_fits (vs : List Word) (h : s.sp.val + vs.length ≤ 16) :
    ∃ t, pushAll vs s = some t ∧ t.sp.val = s.sp.val + vs.length := by
  induction vs generalizing s with
  | nil => exact ⟨s, rfl, rfl⟩
  | cons v vs ih =>
    rw [List.length_cons] at h ⊢
    cases hpush : s.push v with
    | none =>
      have := (s.push_eq_none_iff v).1 hpush
      omega
    | some t =>
      have hsp := sp_of_push hpush
      obtain ⟨u, hrest, hu⟩ := ih (s := t) (by omega)
      exact ⟨u, by rw [pushAll, hpush]; exact hrest, by omega⟩

theorem pushAll_of_overflow (vs : List Word) (h : 16 < s.sp.val + vs.length) : pushAll vs s = none := by
  induction vs generalizing s with
  | nil => exact absurd h (Nat.not_lt.2 (Nat.le_of_lt_succ s.sp.isLt))
  | cons v vs ih =>
    rw [List.length_cons] at h
    rw [pushAll]
    cases hpush : s.push v with
    | none => rfl
    | some t =>
      have hsp := sp_of_push hpush
      exact ih (by omega)

/-- Settles O21: each push that succeeds adds one to SP, and a push succeeds exactly below 16. -/
theorem sixteenPushesSucceedAndNoMore : Obligations.SixteenPushesSucceedAndNoMore := by
  intro s vs h0
  refine ⟨(s.pop_eq_none_iff).2 h0, fun hfit => ?_, fun hover => pushAll_of_overflow vs (by omega)⟩
  obtain ⟨t, hpush, hsp⟩ := pushAll_of_fits (s := s) vs (by omega)
  exact ⟨t, hpush, by rw [State.portDepth, hsp, h0, Nat.zero_add]⟩

/-! ### The canonical memory -/

/-- The first address of a canonical list does not read as the background, which a list of later addresses does read
there. -/
theorem Memory.read_head_ne {bg : Nat → Byte} {lo k : Nat} {b : Byte} {m m' : List Host.Cell}
    (hm : Memory.wfFrom bg lo ((k, b) :: m) = true) (hm' : Memory.wfFrom bg (k + 1) m' = true) :
    Memory.read bg ((k, b) :: m) k ≠ Memory.read bg m' k := by
  simp only [Memory.wfFrom, Bool.and_eq_true, decide_eq_true_eq] at hm
  rw [Memory.read_of_lt hm' (Nat.lt_succ_self k)]
  simpa [Memory.read] using hm.1.2

theorem Memory.wfFrom_of_head_lt {bg : Nat → Byte} {lo k k' : Nat} {b : Byte} {m : List Host.Cell}
    (hm : Memory.wfFrom bg lo ((k', b) :: m) = true) (h : k < k') : Memory.wfFrom bg (k + 1) ((k', b) :: m) = true := by
  simp only [Memory.wfFrom, Bool.and_eq_true, decide_eq_true_eq] at hm ⊢
  obtain ⟨⟨⟨_, hmem⟩, hb⟩, htail⟩ := hm
  exact ⟨⟨⟨h, hmem⟩, hb⟩, htail⟩

theorem Memory.wfFrom_tail {bg : Nat → Byte} {lo k : Nat} {b : Byte} {m : List Host.Cell}
    (hm : Memory.wfFrom bg lo ((k, b) :: m) = true) : Memory.wfFrom bg (k + 1) m = true := by
  simp only [Memory.wfFrom, Bool.and_eq_true] at hm
  exact hm.2

theorem Memory.eq_of_read_eq {bg : Nat → Byte} {lo : Nat} {m m' : List Host.Cell} (hm : Memory.wfFrom bg lo m = true)
    (hm' : Memory.wfFrom bg lo m' = true) (hread : ∀ a, Memory.read bg m a = Memory.read bg m' a) : m = m' := by
  induction m generalizing lo m' with
  | nil =>
    cases m' with
    | nil => rfl
    | cons cell' m' => exact absurd (hread cell'.1).symm (Memory.read_head_ne hm' rfl)
  | cons cell m ih =>
    obtain ⟨k, b⟩ := cell
    cases m' with
    | nil => exact absurd (hread k) (Memory.read_head_ne hm rfl)
    | cons cell' m' =>
      obtain ⟨k', b'⟩ := cell'
      obtain hlt | rfl | hgt := Nat.lt_trichotomy k k'
      · exact absurd (hread k) (Memory.read_head_ne hm (Memory.wfFrom_of_head_lt hm' hlt))
      · have htail := Memory.wfFrom_tail hm
        have htail' := Memory.wfFrom_tail hm'
        have hb : b = b' := by simpa [Memory.read] using hread k
        have hrest : ∀ a, Memory.read bg m a = Memory.read bg m' a := by
          intro a
          by_cases ha : k = a
          · subst ha
            rw [Memory.read_of_lt htail (Nat.lt_succ_self k), Memory.read_of_lt htail' (Nat.lt_succ_self k)]
          · simpa [Memory.read, ha] using hread a
        rw [hb, ih htail htail' hrest]
      · exact absurd (hread k').symm (Memory.read_head_ne hm' (Memory.wfFrom_of_head_lt hm hgt))

/-- Settles O37, by induction over the cells: the lowest address at which two canonical lists differ reads otherwise. -/
theorem equalReadsMeanEqualMemory : Obligations.EqualReadsMeanEqualMemory := fun _ _ _ => Memory.eq_of_read_eq

/-! ### The block instructions -/

theorem rangeOk_of_last {a k : Nat} (h : a + k ≤ 4095) : rangeOk a (k + 1) = true := (rangeOk_iff _ _).2 (by omega)

theorem exec_ldB_of_fits {x : Reg} (h : s.effAddr 2 ≤ 4095) :
    exec (.ldB x) s = .next (s.writeBytes (s.effAddr 0) (bcdDigits (s.reg x))) := by
  simp [exec, execLdB, rangeOk_of_last (a := s.effAddr 0) (k := 2) h]

theorem exec_storeRegs_of_fits {x : Reg} (h : s.effAddr x.val ≤ 4095) :
    exec (.storeRegs x) s = .next ((s.writeBytes (s.effAddr 0) (s.regsUpTo x)).autoIncrement x) := by
  simp [exec, execStoreRegs, rangeOk_of_last (a := s.effAddr 0) (k := x.val) h]

theorem exec_loadRegs_of_fits {x : Reg} (h : s.effAddr x.val ≤ 4095) :
    exec (.loadRegs x) s = .next ((s.setRegsUpTo x fun k => s.readByte (s.effAddr k)).autoIncrement x) := by
  simp [exec, execLoadRegs, rangeOk_of_last (a := s.effAddr 0) (k := x.val) h]

theorem bcdDigits_toNat (b : Byte) : (bcdDigits b)[0].toNat = b.toNat / 100 ∧
    (bcdDigits b)[1].toNat = b.toNat / 10 % 10 ∧ (bcdDigits b)[2].toNat = b.toNat % 10 := by
  have := b.isLt
  simp only [bcdDigits, List.getElem_cons_zero, List.getElem_cons_succ, BitVec.toNat_ofNat]
  omega

/-- The bytes a state holds after FX33, digit by digit. -/
theorem readByte_storeDigits {x : Reg} (hwf : Memory.wf (background s.params) s.mem = true) (hend : s.effAddr 2 ≤ 4095)
    {k : Nat} (hk : k < 3) :
    (s.writeBytes (s.effAddr 0) (bcdDigits (s.reg x))).readByte (s.effAddr k) = (bcdDigits (s.reg x))[k] :=
  s.readByte_writeBytes_in hwf (s.effAddr 0) (bcdDigits (s.reg x)) (Nat.succ_le_succ hend) hk

/-- Settles O32: the three bytes stored are the digits, and a byte is the sum of its digits. -/
theorem bcdStoresThreeDigits : Obligations.BcdStoresThreeDigits := by
  intro x s hwf hend
  have hlt := (s.reg x).isLt
  obtain ⟨h0, h1, h2⟩ := bcdDigits_toNat (s.reg x)
  rw [← readByte_storeDigits hwf hend (by decide)] at h0 h1 h2
  refine ⟨_, exec_ldB_of_fits hend, h0, h1, h2, by omega, ?_⟩
  exact (unchangedBut_writeBytes s _ _).mono fun _ ⟨k, hk, hp⟩ => ⟨k, Nat.le_of_lt_succ hk, hp⟩

theorem regsUpTo_getElem (s : State) (x k : Reg) (hk : k.val < (s.regsUpTo x).length) :
    (s.regsUpTo x)[k.val] = s.reg k := by
  simp [State.regsUpTo, State.reg]

/-- The bytes FX55 stores are the registers, in ascending order. -/
theorem readByte_storeBlock {x k : Reg} (hwf : Memory.wf (background s.params) s.mem = true)
    (hend : s.effAddr x.val ≤ 4095) (hk : k.val ≤ x.val) :
    (s.writeBytes (s.effAddr 0) (s.regsUpTo x)).readByte (s.effAddr k.val) = s.reg k := by
  have hlen : k.val < (s.regsUpTo x).length := by
    rw [regsUpTo_length]
    omega
  have hfit : s.effAddr 0 + (s.regsUpTo x).length ≤ Config.memSize := by
    rw [regsUpTo_length]
    exact Nat.succ_le_succ hend
  exact (s.readByte_writeBytes_in hwf _ _ hfit hlen).trans (regsUpTo_getElem s x k hlen)

@[simp] theorem State.autoIncrement_readByte (s : State) (x : Reg) (a : Nat) :
    (s.autoIncrement x).readByte a = s.readByte a := by
  obtain ⟨j, hj⟩ := s.autoIncrement_eq x
  rw [hj]
  rfl

@[simp] theorem State.autoIncrement_reg (s : State) (x r : Reg) : (s.autoIncrement x).reg r = s.reg r := by
  obtain ⟨j, hj⟩ := s.autoIncrement_eq x
  rw [hj]
  rfl

/-- The block instructions move `I` past the block in the CHIP8 dialect and keep it in the SCHIP dialect. -/
theorem index_autoIncrement (s : State) (x : Reg) :
    (s.dialect = .chip8 → (s.autoIncrement x).i.toNat = (s.i.toNat + x.val + 1) % 4096) ∧
    (s.dialect = .schip → (s.autoIncrement x).i = s.i) := by
  obtain ⟨hd, heq⟩ | ⟨hd, heq⟩ := s.autoIncrement_cases x <;> rw [hd, heq]
  · exact ⟨fun _ => s.setIndex_toNat _, by simp⟩
  · exact ⟨by simp, fun _ => rfl⟩

/-- Settles O33: the bytes stored are the registers, and moving `I` touches no byte. -/
theorem storeRegistersWritesTheBlock : Obligations.StoreRegistersWritesTheBlock := by
  intro x s hwf hend
  have hindex := index_autoIncrement (s.writeBytes (s.effAddr 0) (s.regsUpTo x)) x
  rw [State.writeBytes_dialect, State.writeBytes_i] at hindex
  refine ⟨_, exec_storeRegs_of_fits hend, fun k hk => ?_, hindex.1, hindex.2, ?_⟩
  · rw [State.autoIncrement_readByte, readByte_storeBlock hwf hend hk]
  · refine ((unchangedBut_writeBytes s _ _).trans (unchangedBut_autoIncrement _ x)).mono fun p => Or.imp ?_ And.left
    rintro ⟨k, hk, hp⟩
    rw [regsUpTo_length] at hk
    exact ⟨k, Nat.le_of_lt_succ hk, hp⟩

/-- Settles O34: the registers loaded are the bytes, and moving `I` touches no register. -/
theorem loadRegistersReadsTheBlock : Obligations.LoadRegistersReadsTheBlock := by
  intro x s hend
  obtain ⟨hchip8, hschip⟩ := index_autoIncrement (s.setRegsUpTo x fun k => s.readByte (s.effAddr k)) x
  refine ⟨_, exec_loadRegs_of_fits hend, fun k hk => ?_, hchip8, hschip, ?_⟩
  · rw [State.autoIncrement_reg, State.reg_setRegsUpTo, if_pos hk]
  · exact ((unchangedBut_setRegsUpTo s x _).trans (unchangedBut_autoIncrement _ x)).mono fun p => Or.imp_right And.left

/-- Settles O35: the load reads the bytes the store wrote. -/
theorem storeThenLoadRestoresRegisters : Obligations.StoreThenLoadRestoresRegisters := by
  intro x s t u hwf hend hexec hmem hparams hi
  have haddr : ∀ k, u.effAddr k = s.effAddr k := fun k => by simp only [State.effAddr, hi]
  have hread : ∀ a, u.readByte a = t.readByte a := fun a => by simp only [State.readByte, hmem, hparams]
  obtain ⟨w, hload, hregs, _⟩ := loadRegistersReadsTheBlock x u (by rwa [haddr])
  refine ⟨w, hload, fun k hk => ?_⟩
  obtain rfl := next_inj ((exec_storeRegs_of_fits hend).symm.trans hexec)
  rw [hregs k hk, haddr, hread, State.autoIncrement_readByte, readByte_storeBlock hwf hend hk]

/-! ### The faults of execute -/

theorem completes_of_raiseIn {i : Instr} {k : FaultKind} {w : Word} (hexec : exec i s = .next (s.raiseIn i k))
    (hw : encode i = w) : Completes i s fun t =>
      t.faultedWith k.code (s.pc - 2) w k.addr ∧ UnchangedBut faultParts s t := by
  subst hw
  exact ⟨_, hexec, ⟨rfl, rfl, rfl, rfl, rfl⟩, unchangedBut_raise s k _ _⟩

theorem exec_ret_of_empty (h : s.sp.val = 0) : exec .ret s = .next (s.raiseIn .ret .stackUnderflow) := by
  simp [exec, execRet, (s.pop_eq_none_iff).2 h]

theorem exec_call_of_full {nnn : BitVec 12} (h : s.sp.val = 16) :
    exec (.call nnn) s = .next (s.raiseIn (.call nnn) .stackOverflow) := by
  simp [exec, execCall, (s.push_eq_none_iff _).2 h]

/-- A range of `k + 1` bytes that runs past 4095 fails the check. -/
theorem rangeOk_of_past {k : Nat} (h : 4095 < s.i.toNat + k) : rangeOk (s.effAddr 0) (k + 1) = false := by
  refine eq_false_of_ne_true fun hok => ?_
  have := (rangeOk_iff _ _).1 hok
  rw [State.effAddr] at this
  omega

theorem lastAddr_effAddr (s : State) (k : Nat) : lastAddr (s.effAddr 0) (k + 1) = s.i.toNat + k := by
  simp only [lastAddr, State.effAddr]
  omega

theorem exec_ldB_of_past {x : Reg} (h : 4095 < s.i.toNat + 2) :
    exec (.ldB x) s = .next (s.raiseIn (.ldB x) (.memoryOutOfBounds (s.i.toNat + 2))) := by
  simp only [exec, execLdB, rangeOk_of_past h, lastAddr_effAddr s 2]
  rfl

theorem exec_storeRegs_of_past {x : Reg} (h : 4095 < s.i.toNat + x.val) :
    exec (.storeRegs x) s = .next (s.raiseIn (.storeRegs x) (.memoryOutOfBounds (s.i.toNat + x.val))) := by
  simp only [exec, execStoreRegs, rangeOk_of_past h, lastAddr_effAddr]
  rfl

theorem exec_loadRegs_of_past {x : Reg} (h : 4095 < s.i.toNat + x.val) :
    exec (.loadRegs x) s = .next (s.raiseIn (.loadRegs x) (.memoryOutOfBounds (s.i.toNat + x.val))) := by
  simp only [exec, execLoadRegs, rangeOk_of_past h, lastAddr_effAddr]
  rfl

theorem exec_drw_of_past {x y : Reg} {k : Nat} (hgate : s.gateOpen = true) (h : 4095 < s.i.toNat + k) :
    exec (.drw x y (k + 1)) s = .next (s.raiseIn (.drw x y (k + 1)) (.memoryOutOfBounds (s.i.toNat + k))) := by
  simp only [exec, execDrw, hgate, rangeOk_of_past h, lastAddr_effAddr]
  rfl

/-- Settles O36, fault by fault. -/
theorem executeFaultsFillTheRecord : Obligations.ExecuteFaultsFillTheRecord := by
  intro s x y nnn i code word addr h
  obtain ⟨hsp, rfl, rfl, rfl, rfl⟩ | ⟨hsp, rfl, rfl, rfl, rfl⟩ | ⟨hpast, rfl, h⟩ := h
  · exact completes_of_raiseIn (exec_ret_of_empty hsp) rfl
  · exact completes_of_raiseIn (exec_call_of_full hsp) rfl
  obtain ⟨rfl, rfl, rfl⟩ | ⟨rfl, rfl, rfl⟩ | ⟨rfl, rfl, rfl⟩ | ⟨hgate, n, hn1, hn, rfl, rfl, rfl⟩ := h
  · exact completes_of_raiseIn (exec_ldB_of_past hpast) (congrArg (BitVec.ofNat 16) (by omega))
  · exact completes_of_raiseIn (exec_storeRegs_of_past hpast) (congrArg (BitVec.ofNat 16) (by omega))
  · exact completes_of_raiseIn (exec_loadRegs_of_past hpast) (congrArg (BitVec.ofNat 16) (by omega))
  · obtain ⟨k, rfl⟩ := Nat.exists_eq_add_of_le' hn1
    exact completes_of_raiseIn (exec_drw_of_past hgate hpast) (congrArg (BitVec.ofNat 16) (by omega))

end Sys2Proof.Machine
end

section
/-! PROOFS. One instruction at a time: machine control, control transfer, logic and arithmetic with a flag, the random byte,
the index register, keypad and timers (`40_system.md` to `45_keys_timers.md`). -/

open Sys2Proof.Claims

namespace Sys2Proof.Machine

variable {s : State} {i : Instr}

theorem completes_imp {P Q : State → Prop} (h : Completes i s P) (hPQ : ∀ t, P t → Q t) : Completes i s Q := by
  obtain ⟨t, hexec, hP⟩ := h
  exact ⟨t, hexec, hPQ t hP⟩

/-! ### Machine control -/

/-- Settles O12: one write of the screen and one of `dirty`. -/
theorem clsBlanksTheScreen : Obligations.ClsBlanksTheScreen :=
  ⟨decodes_of_encode rfl rfl rfl, fun s => ⟨_, rfl, pixelOf_blank, rfl, unchangedBut_clearScreen_setDirty s⟩⟩

/-- Settles O13: one write of `status`, after which a slot tests it first. -/
theorem exitHaltsTheCore : Obligations.ExitHaltsTheCore :=
  ⟨decodes_of_encode rfl rfl rfl, fun s =>
    ⟨s.setStatus .halted, rfl, rfl, unchangedBut_setStatus s _, slot_of_not_running (by simp)⟩⟩

/-- Settles O14: both are the one change of resolution, to 64x32 and to 128x64. -/
theorem lowAndHighSelectTheResolution : Obligations.LowAndHighSelectTheResolution := by
  refine ⟨decodes_of_encode rfl rfl rfl, decodes_of_encode rfl rfl rfl, fun s => ⟨?_, ?_⟩⟩
  · exact ⟨s.reallocate false, rfl, rfl, rfl, rfl, rfl, pixelOf_blank, rfl, unchangedBut_reallocate s _⟩
  · exact ⟨s.reallocate true, rfl, rfl, rfl, rfl, rfl, pixelOf_blank, rfl, unchangedBut_reallocate s _⟩

/-! ### Control transfer -/

theorem exec_ret_of_pos (h : 0 < s.sp.val) : exec .ret s =
    .next { s with sp := ⟨s.sp.val - 1, by omega⟩, pc := s.stack[s.sp.val - 1] } := by
  simp only [exec, execRet, State.pop, h, dif_pos]
  rfl

theorem exec_call_of_lt {nnn : BitVec 12} (h : s.sp.val < 16) : exec (.call nnn) s = .next { s with
    stack := s.stack.set s.sp.val s.pc h, sp := ⟨s.sp.val + 1, by omega⟩, pc := nnn.setWidth 16 } := by
  simp only [exec, execCall, State.push, h, dif_pos]
  rfl

/-- Settles O15, by whether the stack has an entry to pop. -/
theorem retPopsTheTopEntry : Obligations.RetPopsTheTopEntry := by
  refine ⟨decodes_of_encode rfl rfl rfl, fun s => ⟨fun h => ?_, fun h => ?_⟩⟩
  · exact ⟨_, exec_ret_of_pos h, rfl, Nat.sub_add_cancel h, rfl, unchangedBut_callStack s _ s.stack _⟩
  · exact ⟨_, exec_ret_of_empty h, rfl, rfl, rfl, (BitVec.sub_add_cancel _ _).symm, unchangedBut_raise s _ _ _⟩

/-- Settles O17, by whether the stack has room. -/
theorem callPushesTheReturnAddress : Obligations.CallPushesTheReturnAddress := by
  intro nnn
  refine ⟨decodes_of_encode rfl rfl (by omega), fun s => ⟨fun h => ?_, fun h => ?_⟩⟩
  · refine ⟨_, exec_call_of_lt h, BitVec.toNat_setWidth_of_le (by decide), rfl, Vector.getElem_set_self h, fun k hk => ?_,
      unchangedBut_callStack s _ _ _⟩
    exact Vector.getElem_set_ne h k.isLt hk.symm
  · refine ⟨_, exec_call_of_full h, rfl, rfl, ?_, (BitVec.sub_add_cancel _ _).symm, unchangedBut_raise s _ _ _⟩
    exact toNat_wordNNN (by decide) nnn.isLt

/-- Settles O18: the sum of a 12-bit address and a byte fits `pc`. -/
theorem jpV0AddsTheDialectsRegister : Obligations.JpV0AddsTheDialectsRegister := by
  intro nnn x hx
  refine ⟨decodes_of_encode rfl rfl (by omega), fun s => ?_⟩
  have hnnn := nnn.isLt
  have hoff := (s.jumpOffset nnn).isLt
  have htop : topNibble nnn = x := by
    ext
    simp only [topNibble, Fin.val_ofNat, hx]
    omega
  have hpc : (BitVec.ofNat 16 (nnn.toNat + (s.jumpOffset nnn).toNat)).toNat = nnn.toNat + (s.jumpOffset nnn).toNat := by
    rw [BitVec.toNat_ofNat]
    omega
  refine ⟨_, rfl, fun hd => ?_, fun hd => ?_, unchangedBut_setPc s _⟩
  · rw [State.setPc_pc, hpc, State.jumpOffset, hd]
  · rw [State.setPc_pc, hpc, State.jumpOffset, hd, htop]

/-- 5XY0 and 9XY0 are the only words of their `op`. -/
theorem isUnknown_of_nField {x y : Reg} {n : Nat} (h1 : 1 ≤ n) (hn : n ≤ 15) :
    IsUnknown (0x5000 + 0x100 * x.val + 0x10 * y.val + n) ∧ IsUnknown (0x9000 + 0x100 * x.val + 0x10 * y.val + n) := by
  obtain ⟨k, rfl⟩ := Nat.exists_eq_add_of_le' h1
  have hk : k + 1 < 16 := by omega
  constructor
  · show decodeWord (wordXYN 0x5 x.val y.val (k + 1)) = .error (.unknownOpcode (wordXYN 0x5 x.val y.val (k + 1)))
    rw [decodeWord, opField_wordXYN (by decide) x.isLt y.isLt hk]
    show decodeFive _ = _
    rw [decodeFive, nField_wordXYN (by decide) x.isLt y.isLt hk]
    rfl
  · show decodeWord (wordXYN 0x9 x.val y.val (k + 1)) = .error (.unknownOpcode (wordXYN 0x9 x.val y.val (k + 1)))
    rw [decodeWord, opField_wordXYN (by decide) x.isLt y.isLt hk]
    show decodeNine _ = _
    rw [decodeNine, nField_wordXYN (by decide) x.isLt y.isLt hk]
    rfl

/-- Settles O20: both instructions are skips, on equality and on inequality of the same two registers. -/
theorem registerSkipsCompareTwoRegisters : Obligations.RegisterSkipsCompareTwoRegisters := by
  intro x y
  refine ⟨decodes_of_encode rfl rfl (by omega),
    decodes_of_encode rfl rfl (by omega), fun n => isUnknown_of_nField, fun s => ⟨?_, ?_⟩⟩
  · exact completes_of_skipIf (c := s.reg x == s.reg y) rfl (by simp [BitVec.toNat_inj]) (by simp [BitVec.toNat_inj])
  · exact completes_of_skipIf (c := s.reg x != s.reg y) rfl (by simp [BitVec.toNat_inj]) (by simp [BitVec.toNat_inj])

/-! ### Results with a flag -/

theorem completes_of_setResultFlag {x : Reg} {b : Byte} {c : Bool} (hexec : exec i s = .next (s.setResultFlag x b c)) :
    Completes i s fun t => (t.reg VF).toNat = (if c then 1 else 0) ∧ (x ≠ VF → t.reg x = b) ∧
      UnchangedBut (regAndFlag x) s t := by
  refine ⟨_, hexec, ?_, fun hx => ?_, unchangedBut_setResultFlag s x b c⟩
  · rw [State.reg_setResultFlag, if_pos rfl, flagByte_toNat]
  · rw [State.reg_setResultFlag, if_neg hx, if_pos rfl]

/-- Settles O25: a result with a flag, which is the carry. -/
theorem addRegistersSetsCarry : Obligations.AddRegistersSetsCarry := by
  intro x y
  refine ⟨decodes_of_encode rfl rfl (by omega), fun s => ?_⟩
  refine completes_imp (completes_of_setResultFlag rfl) fun t ⟨hflag, hreg, hsame⟩ =>
    ⟨fun h => ?_, fun h => ?_, fun hx => ?_, hsame⟩
  · simp [hflag, carry, h]
  · simp [hflag, carry, Nat.not_lt.2 h]
  · rw [hreg hx, BitVec.toNat_add]

/-- The flag of a subtraction and the byte it leaves, for either order of the operands. -/
theorem completes_of_subtraction {x : Reg} {a b : Byte} (hexec : exec i s = .next (s.setResultFlag x (a - b) (noBorrow a b))) :
    Completes i s fun t => (a.toNat < b.toNat → (t.reg VF).toNat = 0) ∧ (b.toNat ≤ a.toNat → (t.reg VF).toNat = 1) ∧
      (x ≠ VF → (t.reg x).toNat = (a.toNat + 256 - b.toNat) % 256) ∧ UnchangedBut (regAndFlag x) s t := by
  refine completes_imp (completes_of_setResultFlag hexec) fun t ⟨hflag, hreg, hsame⟩ =>
    ⟨fun h => ?_, fun h => ?_, fun hx => ?_, hsame⟩
  · simp [hflag, noBorrow, h]
  · simp [hflag, noBorrow, Nat.not_lt.2 h]
  · rw [hreg hx]
    bv_omega

/-- Settles O26: SUB and SUBN are one subtraction with the operands exchanged. -/
theorem subtractsSetNotBorrow : Obligations.SubtractsSetNotBorrow := fun x y =>
  ⟨decodes_of_encode rfl rfl (by omega),
    decodes_of_encode rfl rfl (by omega),
    fun _ => ⟨completes_of_subtraction rfl, completes_of_subtraction rfl⟩⟩

theorem bitOutRight_toNat (a : Byte) : (if bitOutRight a then 1 else 0) = a.toNat % 2 := by
  simp only [bitOutRight, BitVec.getLsbD, Nat.testBit_zero, decide_eq_true_eq]
  split <;> omega

theorem bitOutLeft_toNat (a : Byte) : (if bitOutLeft a then 1 else 0) = a.toNat / 128 := by
  have := a.isLt
  simp only [bitOutLeft, BitVec.getLsbD, Nat.testBit_eq_decide_div_mod_eq, decide_eq_true_eq]
  split <;> omega

theorem shiftSource_toNat {x y : Reg} {v : Nat}
    (h : (s.dialect = .chip8 ∧ v = (s.reg y).toNat) ∨ (s.dialect = .schip ∧ v = (s.reg x).toNat)) :
    (s.shiftSource x y).toNat = v := by
  obtain ⟨hd, rfl⟩ | ⟨hd, rfl⟩ := h <;> rw [State.shiftSource, hd]

/-- Settles O27: both shifts take the dialect's source and put the bit they drop in VF. -/
theorem shiftsTakeTheDialectsSource : Obligations.ShiftsTakeTheDialectsSource := by
  intro x y s v hv
  rw [← shiftSource_toNat hv]
  constructor
  · refine completes_imp (completes_of_setResultFlag rfl) fun t ⟨hflag, hreg, hsame⟩ =>
      ⟨hflag.trans (bitOutRight_toNat _), fun hx => ?_, hsame⟩
    rw [hreg hx]
    bv_omega
  · refine completes_imp (completes_of_setResultFlag rfl) fun t ⟨hflag, hreg, hsame⟩ =>
      ⟨hflag.trans (bitOutLeft_toNat _), fun hx => ?_, hsame⟩
    rw [hreg hx, BitVec.toNat_shiftLeft]
    omega

theorem completes_of_setLogic {x : Reg} {b : Byte} (hexec : exec i s = .next (s.setLogic x b)) :
    Completes i s fun t =>
      (s.dialect = .chip8 → t.reg VF = 0 ∧ (x ≠ VF → t.reg x = b) ∧ UnchangedBut (regAndFlag x) s t) ∧
      (s.dialect = .schip → t.reg x = b ∧ UnchangedBut (justReg x) s t) := by
  refine ⟨_, hexec, fun hd => ⟨?_, fun hx => ?_, ?_⟩, fun hd => ⟨?_, ?_⟩⟩
  · rw [State.reg_setLogic, if_pos ⟨hd, rfl⟩]
  · rw [State.reg_setLogic, if_neg fun h => hx h.2, if_pos rfl]
  · rw [State.setLogic, hd]
    exact (unchangedBut_setReg s x b).trans (unchangedBut_setReg _ VF 0)
  · rw [State.setLogic, hd]
    exact State.reg_setReg_self s x b
  · rw [State.setLogic, hd]
    exact unchangedBut_setReg s x b

/-- Settles O24: one logic write, of a byte whose bits are the operation's. -/
theorem logicClearsFlagInChip8Only : Obligations.LogicClearsFlagInChip8Only := by
  intro x y i op h s
  obtain ⟨b, hexec, hbits⟩ : ∃ b : Byte, exec i s = .next (s.setLogic x b) ∧
      ∀ k < 8, b.getLsbD k = op ((s.reg x).getLsbD k) ((s.reg y).getLsbD k) := by
    obtain ⟨rfl, rfl⟩ | ⟨rfl, rfl⟩ | ⟨rfl, rfl⟩ := h
    · exact ⟨_, rfl, fun k _ => BitVec.getLsbD_or⟩
    · exact ⟨_, rfl, fun k _ => BitVec.getLsbD_and⟩
    · exact ⟨_, rfl, fun k _ => BitVec.getLsbD_xor⟩
  refine completes_imp (completes_of_setLogic hexec) fun t ⟨hchip8, hschip⟩ => ⟨fun hd => ?_, fun hd => ?_⟩
  · obtain ⟨hflag, hreg, hsame⟩ := hchip8 hd
    exact ⟨hflag, fun hx => hreg hx ▸ hbits, hsame⟩
  · obtain ⟨hreg, hsame⟩ := hschip hd
    exact ⟨hreg ▸ hbits, hsame⟩

/-! ### The random byte -/

/-- Settles O28: the sample is the known level or the free value, and the mask bounds either. -/
theorem randomByteIsMasked : Obligations.RandomByteIsMasked := by
  intro x nn
  refine ⟨decodes_of_encode rfl rfl (by omega), fun s => ?_⟩
  have hreg : ((s.setReg x (s.rngSample &&& nn)).countSample).reg x = s.rngSample &&& nn := by simp
  refine ⟨_, rfl, ⟨s.rngSample, hreg, fun c hc => ?_, fun hnone => ?_⟩, fun k _ hk => ?_, ?_, rfl,
    (unchangedBut_setReg s x _).trans (unchangedBut_countSample _)⟩
  · rw [State.rngSample, hc]
  · rw [State.rngSample, hnone]
  · rw [hreg, BitVec.getLsbD_and, hk, Bool.and_false]
  · rw [hreg, BitVec.toNat_and]
    exact Nat.and_le_right

/-! ### The index register -/

/-- Settles O30: the mask of a write of `I` is the reduction modulo 4096. -/
theorem addIndexWrapsWithoutFlag : Obligations.AddIndexWrapsWithoutFlag := fun _ =>
  ⟨decodes_of_encode rfl rfl (by omega), fun s =>
    ⟨_, rfl, s.setIndex_toNat _, unchangedBut_setIndex s _⟩⟩

/-- Settles O31: the last glyph ends below 4096, so that the mask keeps every glyph address. -/
theorem fontAddressOfTheLowDigit : Obligations.FontAddressOfTheLowDigit := by
  intro x
  refine ⟨decodes_of_encode rfl rfl (by omega), fun s => ?_⟩
  refine ⟨_, rfl, fun hbase => ?_, fun hbase => ?_, unchangedBut_setIndex s _⟩ <;>
    rw [State.setIndex_toNat, State.glyphAddr, State.lowNibble, hbase, Config.FontBase.addr] <;> omega

/-! ### Keypad and timers -/

/-- Settles O40: both instructions are skips on the same key. -/
theorem keySkipsTestTheHeldKey : Obligations.KeySkipsTestTheHeldKey := by
  intro x
  refine ⟨decodes_of_encode rfl rfl (by omega),
    decodes_of_encode rfl rfl (by omega), fun s k hk => ?_⟩
  subst hk
  exact ⟨completes_of_skipIf (c := s.keyDown (s.lowNibble x)) rfl id id,
    completes_of_skipIf (c := !s.keyDown (s.lowNibble x)) rfl (by simp [State.keyDown, State.lowNibble])
      (by simp [State.keyDown, State.lowNibble])⟩

theorem exec_ldVxK_of_some {x : Reg} {k : Nat} (h : s.firstReleased = some k) :
    exec (.ldVxK x) s = .next (s.setReg x (BitVec.ofNat 8 k)) := by
  simp [exec, execLdVxK, h]

theorem firstReleased_eq_some {k : Nat} (hk : k < 16) (hrel : s.inputs.keysReleased.getLsbD k = true)
    (hleast : ∀ j < k, s.inputs.keysReleased.getLsbD j = false) : s.firstReleased = some k := by
  rw [State.firstReleased, List.find?_range_eq_some]
  exact ⟨hrel, List.mem_range.2 hk, fun j hj => by simp [State.keyReleased, hleast j hj]⟩

/-- Settles O41, by whether a key is released. -/
theorem keyWaitTakesTheSmallestReleasedKey : Obligations.KeyWaitTakesTheSmallestReleasedKey := by
  intro x
  refine ⟨decodes_of_encode rfl rfl (by omega), fun s => ⟨fun k hk hrel hleast => ?_, fun hnone => ?_⟩⟩
  · have hexec := exec_ldVxK_of_some (x := x) (firstReleased_eq_some hk hrel hleast)
    refine completes_imp (completes_of_setReg hexec) fun t => And.imp_left fun hreg => ?_
    rw [hreg, BitVec.toNat_ofNat]
    omega
  · exact ⟨s.hold, exec_ldVxK_of_none hnone, rfl, unchangedBut_setPc s _⟩

/-- Settles O42: each is one write, and `sound_on` is read from the counter written. -/
theorem timerInstructionsMoveTheCounters : Obligations.TimerInstructionsMoveTheCounters := by
  intro x
  refine ⟨decodes_of_encode rfl rfl (by omega),
    decodes_of_encode rfl rfl (by omega),
    decodes_of_encode rfl rfl (by omega), fun s => ⟨completes_of_setReg rfl, ?_, ?_⟩⟩
  · exact ⟨_, rfl, rfl, unchangedBut_setDelay s _⟩
  · refine ⟨_, rfl, rfl, ?_, unchangedBut_setSound s _⟩
    simp [State.portSoundOn, ← BitVec.toNat_inj]

end Sys2Proof.Machine
end

section
/-! PROOFS. Which instructions depend on the dialect and on the level inputs: the same instruction in two states that differ
there alone (`10_state.md` R32, R44). -/

open Sys2Proof.Claims

namespace Sys2Proof.Machine

/-- The state with another dialect and other levels on the input ports. -/
def withPorts (d : Dialect) (l : Config.Inputs) (s : State) : State := { s with dialect := d, inputs := l }

variable {s t : State} {i : Instr} {d : Dialect} {l : Config.Inputs}

/-! ### What the shared operations make of the other dialect and levels -/

theorem skipIf_withPorts (c : Bool) : (withPorts d l s).skipIf c = withPorts d l (s.skipIf c) := by
  cases c <;> rfl

theorem writeBytes_withPorts (a : Nat) (bs : List Byte) :
    (withPorts d l s).writeBytes a bs = withPorts d l (s.writeBytes a bs) := by
  induction bs generalizing s a with
  | nil => rfl
  | cons b bs ih => exact ih (s := s.writeByte a b) (a + 1)

theorem setLogic_withPorts (hd : d = s.dialect) (x : Reg) (b : Byte) :
    (withPorts d l s).setLogic x b = withPorts d l (s.setLogic x b) := by
  have hdialect : (withPorts d l s).dialect = s.dialect := hd
  rw [State.setLogic, State.setLogic, hdialect]
  cases s.dialect <;> rfl

theorem autoIncrement_withPorts (hd : d = s.dialect) (x : Reg) :
    (withPorts d l s).autoIncrement x = withPorts d l (s.autoIncrement x) := by
  have hdialect : (withPorts d l s).dialect = s.dialect := hd
  rw [State.autoIncrement, State.autoIncrement, hdialect]
  cases s.dialect <;> rfl

theorem loadBlock_withPorts (x : Reg) :
    ((withPorts d l s).setRegsUpTo x fun k => (withPorts d l s).readByte ((withPorts d l s).effAddr k)) =
      withPorts d l (s.setRegsUpTo x fun k => s.readByte (s.effAddr k)) :=
  rfl

/-- The edge mode looks at the dialect under `ByDialect` only. -/
theorem edgeMode_withPorts (hd : s.params.edgePolicy = .byDialect → d = s.dialect) :
    (withPorts d l s).edgeMode = s.edgeMode := by
  cases hp : s.params.edgePolicy with
  | byDialect =>
    obtain rfl := hd hp
    rfl
  | _ => simp [State.edgeMode, withPorts, hp]

theorem drawSprite_withPorts (hd : s.params.edgePolicy = .byDialect → d = s.dialect) (x y : Reg) (n : Nat) :
    (withPorts d l s).drawSprite x y n = withPorts d l (s.drawSprite x y n) := by
  have hpixels : (withPorts d l s).spritePixels x y n = s.spritePixels x y n := by
    simp only [State.spritePixels, State.place, edgeMode_withPorts hd]
    rfl
  simp only [State.drawSprite, State.drawing, hpixels]
  rfl

/-! ### The two runs -/

/-- 00FE and 00FF leave the SCHIP dialect, every other instruction the dialect it found. -/
def dialectAfter (i : Instr) (d : Dialect) : Dialect :=
  match i with
  | .low | .high => .schip
  | _ => d

theorem dialect_eq_dialectAfter (h : exec i s = .next t) : t.dialect = dialectAfter i s.dialect := by
  obtain rfl | rfl | ⟨hlow, hhigh⟩ : i = .low ∨ i = .high ∨ (i ≠ .low ∧ i ≠ .high) := by tauto
  · exact dialect_of_low_or_high (.inl rfl) h
  · exact dialect_of_low_or_high (.inr rfl) h
  · have hsame : t.dialect = s.dialect := (unchangedBut_of_exec h .dialect).resolve_left (not_or.2 ⟨hlow, hhigh⟩)
    rw [hsame]
    unfold dialectAfter
    split
    · exact absurd rfl hlow
    · exact absurd rfl hhigh
    · rfl

/-- An instruction that does not look at the dialect, or at the inputs, does the same with another. -/
theorem exec_withPorts (h : exec i s = .next t) (hd : usesDialect i s → d = s.dialect)
    (hl : samplesInput i → l = s.inputs) :
    exec i (withPorts d l s) = .next (withPorts (dialectAfter i d) l t) := by
  cases i with
  | seImm | sneImm | seReg | sneReg =>
    obtain rfl := next_inj h
    exact congrArg Host.Outcome.next (skipIf_withPorts _)
  | skp | sknp =>
    obtain rfl := next_inj h
    obtain rfl := hl trivial
    exact congrArg Host.Outcome.next (skipIf_withPorts _)
  | rnd =>
    obtain rfl := next_inj h
    obtain rfl := hl trivial
    rfl
  | ldVxK x =>
    obtain rfl := hl trivial
    have hreleased : (withPorts d s.inputs s).firstReleased = s.firstReleased := rfl
    obtain ⟨k, hk, rfl⟩ | ⟨hnone, rfl⟩ := execLdVxK_cases h
    · exact exec_ldVxK_of_some (hreleased.trans hk)
    · exact exec_ldVxK_of_none ((firstReleased_eq_none_iff _).1 (hreleased.trans hnone))
  | orReg | andReg | xorReg =>
    obtain rfl := next_inj h
    exact congrArg Host.Outcome.next (setLogic_withPorts (hd trivial) _ _)
  | shr | shl | jpV0 =>
    obtain rfl := next_inj h
    obtain rfl := hd trivial
    rfl
  | ret =>
    obtain ⟨hs, rfl⟩ | ⟨hs, rfl⟩ := execRet_cases h
    · exact exec_ret_of_pos (s := withPorts d l s) hs
    · exact exec_ret_of_empty (s := withPorts d l s) hs
  | call nnn =>
    obtain ⟨hs, rfl⟩ | ⟨hs, rfl⟩ := execCall_cases h
    · exact exec_call_of_lt (s := withPorts d l s) hs
    · exact exec_call_of_full (s := withPorts d l s) hs
  | ldB x =>
    obtain ⟨hend, rfl⟩ | ⟨hpast, rfl⟩ := execLdB_cases h
    · exact (exec_ldB_of_fits (s := withPorts d l s) hend).trans (congrArg Host.Outcome.next (writeBytes_withPorts _ _))
    · exact exec_ldB_of_past (s := withPorts d l s) hpast
  | storeRegs x =>
    obtain ⟨hend, rfl⟩ | ⟨hpast, rfl⟩ := execStoreRegs_cases h
    · refine (exec_storeRegs_of_fits (s := withPorts d l s) hend).trans (congrArg Host.Outcome.next ?_)
      rw [writeBytes_withPorts, autoIncrement_withPorts (by simpa using hd trivial)]
      rfl
    · exact exec_storeRegs_of_past (s := withPorts d l s) hpast
  | loadRegs x =>
    obtain ⟨hend, rfl⟩ | ⟨hpast, rfl⟩ := execLoadRegs_cases h
    · refine (exec_loadRegs_of_fits (s := withPorts d l s) hend).trans (congrArg Host.Outcome.next ?_)
      rw [loadBlock_withPorts, autoIncrement_withPorts (by simpa using hd trivial)]
      rfl
    · exact exec_loadRegs_of_past (s := withPorts d l s) hpast
  | drw x y n =>
    obtain ⟨hgate, rfl⟩ | ⟨hgate, hrange, rfl⟩ | ⟨hgate, hn, hpast, rfl⟩ := execDrw_cases h
    · exact exec_drw_of_shut (s := withPorts d l s) hgate
    · exact (exec_drw_of_open (s := withPorts d l s) hgate hrange).trans (congrArg Host.Outcome.next (drawSprite_withPorts hd x y n))
    · obtain ⟨k, rfl⟩ := Nat.exists_eq_add_of_le' hn
      exact exec_drw_of_past (s := withPorts d l s) hgate (Nat.lt_of_succ_lt_succ hpast)
  | _ =>
    obtain rfl := next_inj h
    rfl

/-- Settles O52: the second run has another dialect and the same levels. -/
theorem dialectReachesOnlyListedInstructions : Obligations.DialectReachesOnlyListedInstructions := by
  intro i s t d h hi
  have hinputs : t.inputs = s.inputs := (unchangedBut_of_exec h .inputs).resolve_left id
  have hafter : dialectAfter i d = d := by
    unfold dialectAfter
    split
    · exact absurd trivial hi
    · exact absurd trivial hi
    · rfl
  have hrun := exec_withPorts h (d := d) (l := s.inputs) (fun hu => absurd hu hi) (fun _ => rfl)
  rw [hafter, ← hinputs] at hrun
  exact hinputs ▸ hrun

/-- Settles O53: the second run has other levels and the same dialect. -/
theorem inputsReachOnlySamplingInstructions : Obligations.InputsReachOnlySamplingInstructions := by
  intro i s t levels h hi
  have hrun := exec_withPorts h (d := s.dialect) (l := levels) (fun _ => rfl) (fun hu => absurd hu hi)
  rw [← dialect_eq_dialectAfter h] at hrun
  exact hrun

end Sys2Proof.Machine
end
